-- ==== Sys2Proof/Syntax.lean ====
section
/-! DEFINITION. The abstract syntax: one constructor of `Instr` for every row of spec/opcode_table.json, in the table's order.
The first 226 are the encoded instructions. Their operands are the free bit fields of the row, under the row's own field
letters, and `m` is the switch marker S of R67. The other 144 are the steps of the machine's other agents, which no program
encodes; their operands name what the step acts on. -/

namespace Sys2Proof

/-- One instruction of the core, or one step of another agent of the module (95_what_each_step_holds). -/
inductive Instr where
  /-- R74: 16-bit form that copies vb into vd; it executes as OR vd, vb, vb. -/
  | mov_16 (m : Bool) (b : BitVec 5) (d : BitVec 5)
  /-- R74: 16-bit form that writes the sign-extended imm5 into vd. -/
  | movi_16 (m : Bool) (i : BitVec 5) (d : BitVec 5)
  /-- R74: 16-bit form that adds vb to vd with wrap-around. -/
  | addI32_16 (m : Bool) (b : BitVec 5) (d : BitVec 5)
  /-- R74: 16-bit form that adds the sign-extended imm5 to vd. -/
  | addi_16 (m : Bool) (i : BitVec 5) (d : BitVec 5)
  /-- R74: 16-bit form that subtracts vb from vd. -/
  | subI32_16 (m : Bool) (b : BitVec 5) (d : BitVec 5)
  /-- R74: 16-bit form that multiplies vd by vb and keeps the low 32 bits. -/
  | mulI32_16 (m : Bool) (b : BitVec 5) (d : BitVec 5)
  /-- R74: 16-bit form of AND vd, vd, vb. -/
  | and_16 (m : Bool) (b : BitVec 5) (d : BitVec 5)
  /-- R74: 16-bit form of OR vd, vd, vb. -/
  | or_16 (m : Bool) (b : BitVec 5) (d : BitVec 5)
  /-- R74: 16-bit form of XOR vd, vd, vb. -/
  | xor_16 (m : Bool) (b : BitVec 5) (d : BitVec 5)
  /-- R74: 16-bit form of SHL vd, vd, vb. -/
  | shl_16 (m : Bool) (b : BitVec 5) (d : BitVec 5)
  /-- R74: 16-bit form that shifts vd left by an unsigned imm5. -/
  | shli_16 (m : Bool) (i : BitVec 5) (d : BitVec 5)
  /-- R74: 16-bit form that shifts vd right logically by an unsigned imm5. -/
  | shri_16 (m : Bool) (i : BitVec 5) (d : BitVec 5)
  /-- R74: 16-bit form that shifts vd right arithmetically by an unsigned imm5. -/
  | sari_16 (m : Bool) (i : BitVec 5) (d : BitVec 5)
  /-- R74: 16-bit form of FADD.f32 vd, vd, vb. -/
  | faddF32_16 (m : Bool) (b : BitVec 5) (d : BitVec 5)
  /-- R74: 16-bit form of FMUL.f32 vd, vd, vb. -/
  | fmulF32_16 (m : Bool) (b : BitVec 5) (d : BitVec 5)
  /-- R74: 16-bit form of FSUB.f32 vd, vd, vb. -/
  | fsubF32_16 (m : Bool) (b : BitVec 5) (d : BitVec 5)
  /-- R72: Parcel 0x0000 does nothing and is exempt from the pending-flag check. -/
  | nop
  /-- R72: Parcel 0x0002 does nothing and then parks its group until the pending count is zero. -/
  | nopMarker
  /-- R106: Wrapping 32-bit add. -/
  | addI32 (m : Bool) (b : BitVec 7) (a : BitVec 7) (d : BitVec 7)
  /-- R106: Wrapping 32-bit subtract. -/
  | subI32 (m : Bool) (b : BitVec 7) (a : BitVec 7) (d : BitVec 7)
  /-- R106: Saturating 32-bit add that sets stat.sat when it clamps. -/
  | addsI32 (m : Bool) (b : BitVec 7) (a : BitVec 7) (d : BitVec 7)
  /-- R106: Saturating 32-bit subtract. -/
  | subsI32 (m : Bool) (b : BitVec 7) (a : BitVec 7) (d : BitVec 7)
  /-- R106: Low 32 bits of a product. -/
  | mulI32 (m : Bool) (b : BitVec 7) (a : BitVec 7) (d : BitVec 7)
  /-- R106: High 32 bits of a signed product. -/
  | mulhiI32 (m : Bool) (b : BitVec 7) (a : BitVec 7) (d : BitVec 7)
  /-- R106: High 32 bits of an unsigned product. -/
  | mulhiN32 (m : Bool) (b : BitVec 7) (a : BitVec 7) (d : BitVec 7)
  /-- R106: Full signed 64-bit product written to a register pair. -/
  | mulwI32 (m : Bool) (b : BitVec 7) (a : BitVec 7) (d : BitVec 7)
  /-- R106: Wrapping multiply-add into d. -/
  | madI32 (m : Bool) (b : BitVec 7) (a : BitVec 7) (d : BitVec 7)
  /-- R106: Signed 64-bit multiply-add into a register pair. -/
  | madwI32 (m : Bool) (b : BitVec 7) (a : BitVec 7) (d : BitVec 7)
  /-- R106: Unsigned 64-bit multiply-add into a register pair. -/
  | madwN32 (m : Bool) (b : BitVec 7) (a : BitVec 7) (d : BitVec 7)
  /-- R106: Adds the absolute difference of a and b into d. -/
  | sadN32 (m : Bool) (b : BitVec 7) (a : BitVec 7) (d : BitVec 7)
  /-- R106: Signed minimum. -/
  | minI32 (m : Bool) (b : BitVec 7) (a : BitVec 7) (d : BitVec 7)
  /-- R106: Signed maximum. -/
  | maxI32 (m : Bool) (b : BitVec 7) (a : BitVec 7) (d : BitVec 7)
  /-- R106: Unsigned minimum. -/
  | minN32 (m : Bool) (b : BitVec 7) (a : BitVec 7) (d : BitVec 7)
  /-- R106: Unsigned maximum. -/
  | maxN32 (m : Bool) (b : BitVec 7) (a : BitVec 7) (d : BitVec 7)
  /-- R107: Bitwise AND. -/
  | and (m : Bool) (b : BitVec 7) (a : BitVec 7) (d : BitVec 7)
  /-- R107: Bitwise OR. -/
  | or (m : Bool) (b : BitVec 7) (a : BitVec 7) (d : BitVec 7)
  /-- R107: Bitwise XOR. -/
  | xor (m : Bool) (b : BitVec 7) (a : BitVec 7) (d : BitVec 7)
  /-- R107: a AND NOT b. -/
  | andn (m : Bool) (b : BitVec 7) (a : BitVec 7) (d : BitVec 7)
  /-- R107: Left shift by b[4:0]. -/
  | shl (m : Bool) (b : BitVec 7) (a : BitVec 7) (d : BitVec 7)
  /-- R107: Logical right shift by b[4:0]. -/
  | shr (m : Bool) (b : BitVec 7) (a : BitVec 7) (d : BitVec 7)
  /-- R107: Arithmetic right shift by b[4:0]. -/
  | sar (m : Bool) (b : BitVec 7) (a : BitVec 7) (d : BitVec 7)
  /-- R107: Left rotate by b[4:0]. -/
  | rol (m : Bool) (b : BitVec 7) (a : BitVec 7) (d : BitVec 7)
  /-- R107: Counts the 1 bits of a. -/
  | popc (m : Bool) (a : BitVec 7) (d : BitVec 7)
  /-- R107: Counts the leading zero bits of a. -/
  | clz (m : Bool) (a : BitVec 7) (d : BitVec 7)
  /-- R107: Reverses the bits of a. -/
  | brev (m : Bool) (a : BitVec 7) (d : BitVec 7)
  /-- R107: Gives the index of the lowest 1 bit of a, or 32 when a is 0. -/
  | ffs (m : Bool) (a : BitVec 7) (d : BitVec 7)
  /-- R108: Extracts an unsigned bit field. -/
  | bfxN32 (m : Bool) (b : BitVec 7) (a : BitVec 7) (d : BitVec 7)
  /-- R108: Extracts a signed bit field. -/
  | bfxI32 (m : Bool) (b : BitVec 7) (a : BitVec 7) (d : BitVec 7)
  /-- R108: Inserts a bit field into d. -/
  | bfi (m : Bool) (b : BitVec 7) (a : BitVec 7) (d : BitVec 7)
  /-- R108: Selects, zeroes or sign-extends bytes of a under control of b. -/
  | bysel (m : Bool) (b : BitVec 7) (a : BitVec 7) (d : BitVec 7)
  /-- R109: Wrapping absolute value. -/
  | absI32 (m : Bool) (a : BitVec 7) (d : BitVec 7)
  /-- R109: Wrapping negation. -/
  | negI32 (m : Bool) (a : BitVec 7) (d : BitVec 7)
  /-- R109: Sign-extends a from bit b[4:0]. -/
  | sext (m : Bool) (b : BitVec 7) (a : BitVec 7) (d : BitVec 7)
  /-- R109: Zero-extends a from bit b[4:0]. -/
  | zext (m : Bool) (b : BitVec 7) (a : BitVec 7) (d : BitVec 7)
  /-- R110: Wrapping 64-bit add on register pairs. -/
  | addI64 (m : Bool) (b : BitVec 7) (a : BitVec 7) (d : BitVec 7)
  /-- R110: Wrapping 64-bit subtract on register pairs. -/
  | subI64 (m : Bool) (b : BitVec 7) (a : BitVec 7) (d : BitVec 7)
  /-- R110: 64-bit left shift by b[5:0]. -/
  | shlI64 (m : Bool) (b : BitVec 7) (a : BitVec 7) (d : BitVec 7)
  /-- R110: 64-bit logical right shift by b[5:0]. -/
  | shrN64 (m : Bool) (b : BitVec 7) (a : BitVec 7) (d : BitVec 7)
  /-- R111: Rounding arithmetic right shift, ties to even. -/
  | shrrI32 (m : Bool) (b : BitVec 7) (a : BitVec 7) (d : BitVec 7)
  /-- R111: Rounding right shift, then saturation to i16. -/
  | shrrnI16 (m : Bool) (b : BitVec 7) (a : BitVec 7) (d : BitVec 7)
  /-- R111: Saturates a to i16. -/
  | satnI16 (m : Bool) (a : BitVec 7) (d : BitVec 7)
  /-- R111: Saturates a to i8. -/
  | satnI8 (m : Bool) (a : BitVec 7) (d : BitVec 7)
  /-- R112: Saturating packed i16 add. -/
  | paddI16x2 (m : Bool) (b : BitVec 7) (a : BitVec 7) (d : BitVec 7)
  /-- R112: Saturating packed i16 subtract. -/
  | psubI16x2 (m : Bool) (b : BitVec 7) (a : BitVec 7) (d : BitVec 7)
  /-- R112: Saturating packed i16 multiply. -/
  | pmulI16x2 (m : Bool) (b : BitVec 7) (a : BitVec 7) (d : BitVec 7)
  /-- R112: Packed i16 maximum. -/
  | pmaxI16x2 (m : Bool) (b : BitVec 7) (a : BitVec 7) (d : BitVec 7)
  /-- R113: Two-element i16 dot product added into d and saturated once. -/
  | pmad2I16 (m : Bool) (b : BitVec 7) (a : BitVec 7) (d : BitVec 7)
  /-- R113: Crossed two-element i16 dot product added into d. -/
  | pmad2xI16 (m : Bool) (b : BitVec 7) (a : BitVec 7) (d : BitVec 7)
  /-- R113: Four-element i8 dot product added into d. -/
  | pmad4I8 (m : Bool) (b : BitVec 7) (a : BitVec 7) (d : BitVec 7)
  /-- R113: Two-element n16 dot product added into d with unsigned saturation. -/
  | pmad2N16 (m : Bool) (b : BitVec 7) (a : BitVec 7) (d : BitVec 7)
  /-- R114: Packs the low halves of a and b into d. -/
  | pack16 (m : Bool) (b : BitVec 7) (a : BitVec 7) (d : BitVec 7)
  /-- R114: Sign-extends the low half of a. -/
  | unpkloI16 (m : Bool) (a : BitVec 7) (d : BitVec 7)
  /-- R114: Sign-extends the high half of a. -/
  | unpkhiI16 (m : Bool) (a : BitVec 7) (d : BitVec 7)
  /-- R114: Packed rounding right shift of i16 elements. -/
  | pshrrI16x2 (m : Bool) (b : BitVec 7) (a : BitVec 7) (d : BitVec 7)
  /-- R120: Selects a or b in each lane by one of the predicates p0 to p3. -/
  | selP0P3 (m : Bool) (n : BitVec 2) (b : BitVec 7) (a : BitVec 7) (d : BitVec 7)
  /-- R120: Selects a or b in each lane by one of the predicates p4 to p7. -/
  | selP4P7 (m : Bool) (n : BitVec 2) (b : BitVec 7) (a : BitVec 7) (d : BitVec 7)
  /-- R118: Signed integer compare into a predicate. -/
  | icmpI32 (m : Bool) (c : BitVec 2) (b : BitVec 7) (a : BitVec 7) (k : BitVec 4) (p : BitVec 3)
  /-- R118: Unsigned integer compare into a predicate. -/
  | icmpN32 (m : Bool) (c : BitVec 2) (b : BitVec 7) (a : BitVec 7) (k : BitVec 4) (p : BitVec 3)
  /-- R118: f32 compare into a predicate. -/
  | fcmpF32 (m : Bool) (c : BitVec 2) (b : BitVec 7) (a : BitVec 7) (k : BitVec 4) (p : BitVec 3)
  /-- R118: Signed compare against a 7-bit immediate. -/
  | icmpiI32 (m : Bool) (c : BitVec 2) (i : BitVec 7) (a : BitVec 7) (k : BitVec 4) (p : BitVec 3)
  /-- R119: Combines two predicates through a truth table. -/
  | plog (m : Bool) (o : BitVec 4) (b : BitVec 3) (a : BitVec 3) (d : BitVec 3)
  /-- R116: Writes the sign-extended imm16 into d. -/
  | movi (m : Bool) (i : BitVec 16) (d : BitVec 7)
  /-- R116: Writes imm16 into the high half of d. -/
  | movhi (m : Bool) (i : BitVec 16) (d : BitVec 7)
  /-- R117: Adds a signed 9-bit immediate. -/
  | addi (m : Bool) (i : BitVec 9) (a : BitVec 7) (d : BitVec 7)
  /-- R117: ANDs with a sign-extended immediate. -/
  | andi (m : Bool) (i : BitVec 9) (a : BitVec 7) (d : BitVec 7)
  /-- R117: ORs with a sign-extended immediate. -/
  | ori (m : Bool) (i : BitVec 9) (a : BitVec 7) (d : BitVec 7)
  /-- R117: XORs with a sign-extended immediate. -/
  | xori (m : Bool) (i : BitVec 9) (a : BitVec 7) (d : BitVec 7)
  /-- R117: Immediate left shift (SHI, kind 0). -/
  | shli (m : Bool) (n : BitVec 5) (a : BitVec 7) (d : BitVec 7)
  /-- R117: Immediate logical right shift (SHI, kind 1). -/
  | shri (m : Bool) (n : BitVec 5) (a : BitVec 7) (d : BitVec 7)
  /-- R117: Immediate arithmetic right shift (SHI, kind 2). -/
  | sari (m : Bool) (n : BitVec 5) (a : BitVec 7) (d : BitVec 7)
  /-- R117: Immediate rotate left (SHI, kind 3). -/
  | roli (m : Bool) (n : BitVec 5) (a : BitVec 7) (d : BitVec 7)
  /-- R117: Multiplies by a signed 9-bit immediate and keeps the low 32 bits. -/
  | muli (m : Bool) (i : BitVec 9) (a : BitVec 7) (d : BitVec 7)
  /-- R121: IEEE f32 add. -/
  | faddF32 (m : Bool) (b : BitVec 7) (a : BitVec 7) (d : BitVec 7)
  /-- R121: IEEE f32 subtract. -/
  | fsubF32 (m : Bool) (b : BitVec 7) (a : BitVec 7) (d : BitVec 7)
  /-- R121: IEEE f32 multiply. -/
  | fmulF32 (m : Bool) (b : BitVec 7) (a : BitVec 7) (d : BitVec 7)
  /-- R121: Fused f32 multiply-add into d with one rounding. -/
  | ffmaF32 (m : Bool) (b : BitVec 7) (a : BitVec 7) (d : BitVec 7)
  /-- R122: f32 minimum, with NaN and signed-zero rules. -/
  | fminF32 (m : Bool) (b : BitVec 7) (a : BitVec 7) (d : BitVec 7)
  /-- R122: f32 maximum, with NaN and signed-zero rules. -/
  | fmaxF32 (m : Bool) (b : BitVec 7) (a : BitVec 7) (d : BitVec 7)
  /-- R122: Clears the sign bit. -/
  | fabsF32 (m : Bool) (a : BitVec 7) (d : BitVec 7)
  /-- R122: Inverts the sign bit. -/
  | fnegF32 (m : Bool) (a : BitVec 7) (d : BitVec 7)
  /-- R123: Packed bf16 add. -/
  | haddBf16x2 (m : Bool) (b : BitVec 7) (a : BitVec 7) (d : BitVec 7)
  /-- R123: Packed bf16 multiply. -/
  | hmulBf16x2 (m : Bool) (b : BitVec 7) (a : BitVec 7) (d : BitVec 7)
  /-- R123: Packed bf16 fused multiply-add. -/
  | hfmaBf16x2 (m : Bool) (b : BitVec 7) (a : BitVec 7) (d : BitVec 7)
  /-- R123: Packed bf16 maximum. -/
  | hmaxBf16x2 (m : Bool) (b : BitVec 7) (a : BitVec 7) (d : BitVec 7)
  /-- R123: Packed f16 add. -/
  | haddF16x2 (m : Bool) (b : BitVec 7) (a : BitVec 7) (d : BitVec 7)
  /-- R123: Packed f16 multiply. -/
  | hmulF16x2 (m : Bool) (b : BitVec 7) (a : BitVec 7) (d : BitVec 7)
  /-- R123: Packed f16 fused multiply-add. -/
  | hfmaF16x2 (m : Bool) (b : BitVec 7) (a : BitVec 7) (d : BitVec 7)
  /-- R123: Packed f16 maximum. -/
  | hmaxF16x2 (m : Bool) (b : BitVec 7) (a : BitVec 7) (d : BitVec 7)
  /-- R124: Reciprocal within 1 ulp. -/
  | rcpF32 (m : Bool) (a : BitVec 7) (d : BitVec 7)
  /-- R124: Reciprocal square root within 1 ulp. -/
  | rsqF32 (m : Bool) (a : BitVec 7) (d : BitVec 7)
  /-- R124: Base-2 exponential within 2 ulp. -/
  | exp2F32 (m : Bool) (a : BitVec 7) (d : BitVec 7)
  /-- R124: Base-2 logarithm within 2 ulp. -/
  | log2F32 (m : Bool) (a : BitVec 7) (d : BitVec 7)
  /-- R125: Correctly rounded f32 division. -/
  | fdivF32 (m : Bool) (b : BitVec 7) (a : BitVec 7) (d : BitVec 7)
  /-- R125: Correctly rounded f32 square root. -/
  | sqrtF32 (m : Bool) (a : BitVec 7) (d : BitVec 7)
  /-- R125: Rounds to an integral value, ties to even. -/
  | frndF32 (m : Bool) (a : BitVec 7) (d : BitVec 7)
  /-- R126: Writes the one-hot class of a. -/
  | fclsF32 (m : Bool) (a : BitVec 7) (d : BitVec 7)
  /-- R128: Converts between element formats with rounding and optional saturation. -/
  | cvt (m : Bool) (u : BitVec 1) (r : BitVec 4) (t : BitVec 4) (a : BitVec 7) (d : BitVec 7)
  /-- R129: Converts float to integer, truncating toward zero. -/
  | cvtz (m : Bool) (u : BitVec 1) (r : BitVec 4) (t : BitVec 4) (a : BitVec 7) (d : BitVec 7)
  /-- R130: Quantises each block of 8 lanes to FP4-B8 codes and a scale. -/
  | qntFp4b8 (m : Bool) (b : BitVec 7) (a : BitVec 7) (d : BitVec 7)
  /-- R131: Quantises all 32 lanes to one MXFP4 block. -/
  | qntMxfp4 (m : Bool) (a : BitVec 7) (d : BitVec 7)
  /-- R132: Decodes one FP4-B8 element per lane to f32. -/
  | dqntFp4b8 (m : Bool) (b : BitVec 7) (a : BitVec 7) (d : BitVec 7)
  /-- R134: Reads a from lane n. -/
  | lxchPick (m : Bool) (b : BitVec 7) (a : BitVec 7) (d : BitVec 7)
  /-- R134: Rotates lane values toward higher lanes. -/
  | lxchRotr (m : Bool) (b : BitVec 7) (a : BitVec 7) (d : BitVec 7)
  /-- R134: Rotates lane values toward lower lanes. -/
  | lxchRotl (m : Bool) (b : BitVec 7) (a : BitVec 7) (d : BitVec 7)
  /-- R134: Reverses lane order within aligned blocks. -/
  | lxchRev (m : Bool) (b : BitVec 7) (a : BitVec 7) (d : BitVec 7)
  /-- R135: Slides halfword elements up by one, with b entering at the open end. -/
  | slideUp1H (m : Bool) (b : BitVec 7) (a : BitVec 7) (d : BitVec 7)
  /-- R135: Slides halfword elements down by one. -/
  | slideDn1H (m : Bool) (b : BitVec 7) (a : BitVec 7) (d : BitVec 7)
  /-- R135: Slides words up by one lane. -/
  | slideUp1W (m : Bool) (b : BitVec 7) (a : BitVec 7) (d : BitVec 7)
  /-- R135: Slides words down by one lane. -/
  | slideDn1W (m : Bool) (b : BitVec 7) (a : BitVec 7) (d : BitVec 7)
  /-- R136: Gives the mask of flagged active lanes. -/
  | lmaskSet (m : Bool) (a : BitVec 7) (d : BitVec 7)
  /-- R136: Counts the flagged active lanes. -/
  | lmaskCnt (m : Bool) (a : BitVec 7) (d : BitVec 7)
  /-- R136: Gives each lane the count of flagged active lanes below it. -/
  | lmaskPfx (m : Bool) (a : BitVec 7) (d : BitVec 7)
  /-- R136: Gives the index of the lowest flagged active lane. -/
  | lmaskFirst (m : Bool) (a : BitVec 7) (d : BitVec 7)
  /-- R137: Wrapping sum over the active lanes. -/
  | gredAddI32 (m : Bool) (a : BitVec 7) (d : BitVec 7)
  /-- R137: Signed maximum over the active lanes. -/
  | gredMaxI32 (m : Bool) (a : BitVec 7) (d : BitVec 7)
  /-- R137: Signed minimum over the active lanes. -/
  | gredMinI32 (m : Bool) (a : BitVec 7) (d : BitVec 7)
  /-- R137: f32 sum over the active lanes in a fixed tree. -/
  | gredAddF32 (m : Bool) (a : BitVec 7) (d : BitVec 7)
  /-- R140: Unconditional relative branch of the split. -/
  | bra (m : Bool) (o : BitVec 23)
  /-- R141: Predicated branch that may divide the split. -/
  | brp (m : Bool) (o : BitVec 19) (n : BitVec 1) (p : BitVec 3)
  /-- R144: Pushes the return PC on the split's return stack and branches. -/
  | call (m : Bool) (o : BitVec 23)
  /-- R145: Pops the return stack into the PC. -/
  | ret (m : Bool)
  /-- R146: Per-lane jump through a table; it divides the split by target. -/
  | jtab (m : Bool) (n : BitVec 9) (a : BitVec 7)
  /-- R148: Decrements a uniform counter and branches back while it stays nonzero. -/
  | loop (m : Bool) (o : BitVec 18) (c : BitVec 5)
  /-- R149: Removes the split's active lanes from the group. -/
  | exit (m : Bool)
  /-- R151: 32-bit no-operation. -/
  | nop32 (m : Bool)
  /-- R151: Parks the group until its results and writes are complete. -/
  | waitall (m : Bool)
  /-- R151: Holds the group until the other groups that were ready have issued, or 64 clk pass. -/
  | yield (m : Bool)
  /-- R158: Raises software cause 0xC0 + k. -/
  | trap (m : Bool) (i : BitVec 5)
  /-- R157: Returns from a trap handler and restores the trapped split. -/
  | rft (m : Bool)
  /-- R160: Reads a special register. -/
  | gets (m : Bool) (e : BitVec 6) (d : BitVec 7)
  /-- R160: Writes a special register. -/
  | sets (m : Bool) (e : BitVec 6) (a : BitVec 7)
  /-- R161: Supervisor page mapping from the context's frame pool. -/
  | mappg (m : Bool) (b : BitVec 7) (a : BitVec 6) (d : BitVec 7)
  /-- R162: Invalidates the context's TLB entries for one address. -/
  | tlbinvPage (m : Bool) (a : BitVec 6)
  /-- R162: Invalidates all TLB entries of the context. -/
  | tlbinvCtx (m : Bool)
  /-- R163: Ends the workgroup and its gang and reports the launch as failed. -/
  | halt (m : Bool)
  /-- R178: Per-lane load at the encoded scope. -/
  | ld (m : Bool) (x : BitVec 1) (o : BitVec 1) (h : BitVec 2) (c : BitVec 3) (z : BitVec 3) (a : BitVec 6) (d : BitVec 7)
  /-- R179: Per-lane store at the encoded scope. -/
  | st (m : Bool) (o : BitVec 1) (h : BitVec 2) (c : BitVec 3) (z : BitVec 3) (a : BitVec 6) (v : BitVec 7)
  /-- R180: One load at the lowest active lane's address into an s register. -/
  | lds (m : Bool) (o : BitVec 1) (h : BitVec 2) (c : BitVec 3) (z : BitVec 3) (a : BitVec 6) (d : BitVec 7)
  /-- R181: Load that decodes an element by the page's format attribute. -/
  | ldx (m : Bool) (x : BitVec 1) (o : BitVec 1) (h : BitVec 2) (c : BitVec 3) (z : BitVec 3) (a : BitVec 6) (d : BitVec 7)
  /-- R182: Prefetches lines into the L2 and possibly the L1. -/
  | pref (m : Bool) (h : BitVec 2) (c : BitVec 3) (a : BitVec 6)
  /-- R176: Builds a generic pointer from an offset and a tag word. -/
  | ptrmk (m : Bool) (b : BitVec 7) (a : BitVec 7) (d : BitVec 7)
  /-- R176: Extracts a pointer's tag and rank. -/
  | ptrsp (m : Bool) (a : BitVec 7) (d : BitVec 7)
  /-- R176: Replaces a pointer's rank bits. -/
  | ptrrk (m : Bool) (b : BitVec 7) (a : BitVec 7) (d : BitVec 7)
  /-- R176: Adds a signed offset to a pointer and keeps its tag and rank. -/
  | ptroff (m : Bool) (b : BitVec 7) (a : BitVec 7) (d : BitVec 7)
  /-- R186: Parks the group until its release and acquire parts are complete. -/
  | fence (m : Bool) (k : BitVec 2) (c : BitVec 3)
  /-- R187: Atomic 32-bit add that returns the old value. -/
  | atomAddI32 (m : Bool) (c : BitVec 3) (v : BitVec 7) (a : BitVec 6) (d : BitVec 7)
  /-- R187: Atomic signed minimum. -/
  | atomMinI32 (m : Bool) (c : BitVec 3) (v : BitVec 7) (a : BitVec 6) (d : BitVec 7)
  /-- R187: Atomic signed maximum. -/
  | atomMaxI32 (m : Bool) (c : BitVec 3) (v : BitVec 7) (a : BitVec 6) (d : BitVec 7)
  /-- R187: Atomic unsigned minimum. -/
  | atomMinN32 (m : Bool) (c : BitVec 3) (v : BitVec 7) (a : BitVec 6) (d : BitVec 7)
  /-- R187: Atomic unsigned maximum. -/
  | atomMaxN32 (m : Bool) (c : BitVec 3) (v : BitVec 7) (a : BitVec 6) (d : BitVec 7)
  /-- R187: Atomic AND. -/
  | atomAnd (m : Bool) (c : BitVec 3) (v : BitVec 7) (a : BitVec 6) (d : BitVec 7)
  /-- R187: Atomic OR. -/
  | atomOr (m : Bool) (c : BitVec 3) (v : BitVec 7) (a : BitVec 6) (d : BitVec 7)
  /-- R187: Atomic XOR. -/
  | atomXor (m : Bool) (c : BitVec 3) (v : BitVec 7) (a : BitVec 6) (d : BitVec 7)
  /-- R187: Atomic exchange. -/
  | atomXchg (m : Bool) (c : BitVec 3) (v : BitVec 7) (a : BitVec 6) (d : BitVec 7)
  /-- R187: Atomic 32-bit compare-and-swap. -/
  | atomCas (m : Bool) (c : BitVec 3) (v : BitVec 7) (a : BitVec 6) (d : BitVec 7)
  /-- R187: Atomic 64-bit add. -/
  | atomAddI64 (m : Bool) (c : BitVec 3) (v : BitVec 7) (a : BitVec 6) (d : BitVec 7)
  /-- R187: Atomic 64-bit compare-and-swap. -/
  | atomCasI64 (m : Bool) (c : BitVec 3) (v : BitVec 7) (a : BitVec 6) (d : BitVec 7)
  /-- R187: Atomic f32 add. -/
  | atomFaddF32 (m : Bool) (c : BitVec 3) (v : BitVec 7) (a : BitVec 6) (d : BitVec 7)
  /-- R190: Reduction that adds 32-bit values at memory. -/
  | redAddI32 (m : Bool) (c : BitVec 3) (v : BitVec 7) (a : BitVec 6)
  /-- R190: Reduction that adds 64-bit values at memory. -/
  | redAddI64 (m : Bool) (c : BitVec 3) (v : BitVec 7) (a : BitVec 6)
  /-- R190: Reduction by signed minimum. -/
  | redMinI32 (m : Bool) (c : BitVec 3) (v : BitVec 7) (a : BitVec 6)
  /-- R190: Reduction by signed maximum. -/
  | redMaxI32 (m : Bool) (c : BitVec 3) (v : BitVec 7) (a : BitVec 6)
  /-- R190: Reduction by unsigned minimum. -/
  | redMinN32 (m : Bool) (c : BitVec 3) (v : BitVec 7) (a : BitVec 6)
  /-- R190: Reduction by unsigned maximum. -/
  | redMaxN32 (m : Bool) (c : BitVec 3) (v : BitVec 7) (a : BitVec 6)
  /-- R190: Reduction by AND. -/
  | redAnd (m : Bool) (c : BitVec 3) (v : BitVec 7) (a : BitVec 6)
  /-- R190: Reduction by OR. -/
  | redOr (m : Bool) (c : BitVec 3) (v : BitVec 7) (a : BitVec 6)
  /-- R190: Reduction by XOR. -/
  | redXor (m : Bool) (c : BitVec 3) (v : BitVec 7) (a : BitVec 6)
  /-- R190: Reduction by f32 add. -/
  | redFaddF32 (m : Bool) (c : BitVec 3) (v : BitVec 7) (a : BitVec 6)
  /-- R64: Adds bf16 elements through the FP32 shadow. -/
  | redFaddBf16x2 (m : Bool) (c : BitVec 3) (v : BitVec 7) (a : BitVec 6)
  /-- R64: Adds FP8 elements through the FP32 shadow. -/
  | redFaddFp8 (m : Bool) (c : BitVec 3) (v : BitVec 7) (a : BitVec 6)
  /-- R192: One arrival on a barrier word; d receives the phase read at issue. -/
  | barArv (m : Bool) (i : BitVec 7) (d : BitVec 7)
  /-- R192: One arrival and one drop of the expected count. -/
  | barArvdrop (m : Bool) (i : BitVec 7) (d : BitVec 7)
  /-- R192: The split waits until the word's phase differs from a. -/
  | barWait (m : Bool) (i : BitVec 7) (a : BitVec 7)
  /-- R192: One arrival, then a wait for the phase to change. -/
  | barSync (m : Bool) (i : BitVec 7)
  /-- R191: Initialises the expected and pending counts of a barrier word. -/
  | binit (m : Bool) (i : BitVec 7) (a : BitVec 7)
  /-- R195: Grants up to k new groups to an elastic workgroup. -/
  | attach (m : Bool) (a : BitVec 7) (d : BitVec 7)
  /-- R196: Retires the issuing group from its elastic workgroup. -/
  | detach (m : Bool)
  /-- R197: Marks the point after which dependants may start; a device-scope release. -/
  | trigger (m : Bool)
  /-- R199: Reserves a free queue slot, parking while none is free. -/
  | qpush (m : Bool) (a : BitVec 6) (d : BitVec 7)
  /-- R199: Commits the group's oldest held slot; a device-scope release. -/
  | qpop (m : Bool) (a : BitVec 6) (d : BitVec 7)
  /-- R199: Frees the workgroup's oldest dispatched slot. -/
  | qfree (m : Bool) (a : BitVec 6)
  /-- R202: Drains a publish window to host memory and bumps its version counter. -/
  | publish (m : Bool) (a : BitVec 6)
  /-- R241: Block copy from a tensor into the local store or a tile. -/
  | bcopyG2l (m : Bool) (t : BitVec 1) (c : BitVec 7) (a : BitVec 6) (d : BitVec 7)
  /-- R241: Block copy from the local store or a tile into a tensor. -/
  | bcopyL2g (m : Bool) (t : BitVec 1) (c : BitVec 7) (a : BitVec 6) (d : BitVec 7)
  /-- R247: Copies 16 B per lane to the local store, then arrives on a barrier word. -/
  | lcopy (m : Bool) (i : BitVec 7) (a : BitVec 6) (v : BitVec 7)
  /-- R249: Seals the copies issued since the last CSEAL into batch n. -/
  | cseal (m : Bool) (n : BitVec 3)
  /-- R249: The split waits until every copy of batch n has completed. -/
  | cwait (m : Bool) (n : BitVec 3)
  /-- R230: Makes a tile-table entry valid from a descriptor. -/
  | tsetup (m : Bool) (t : BitVec 6) (a : BitVec 6)
  /-- R233: Invalidates a tile entry once its operations are done. -/
  | tfree (m : Bool) (t : BitVec 6)
  /-- R231: Reads a snapshot of a tile entry. -/
  | tstate (m : Bool) (t : BitVec 6) (d : BitVec 7)
  /-- R232: Moves a READY tile to DRAINING. -/
  | tdrain (m : Bool) (t : BitVec 6)
  /-- R252: Starts the matrix and/or copy sequencer at relative entries. -/
  | fork (m : Bool) (b : BitVec 7) (a : BitVec 7)
  /-- R255: Waits for the group's sequencers to finish and reports their causes. -/
  | rdv (m : Bool) (d : BitVec 7)
  /-- R254: Ends the fetch of an engine program. -/
  | endseq (m : Bool)
  /-- R257: Issues the group's share of a collective operation on a tile. -/
  | coll (m : Bool) (i : BitVec 4) (t : BitVec 6) (a : BitVec 6) (d : BitVec 7)
  /-- R263: Posts an exchange record's demand to the Cartographers. -/
  | dpost (m : Bool) (i : BitVec 4) (a : BitVec 6) (d : BitVec 7)
  /-- R212: Queues a tile-by-weight matrix multiply-accumulate into an accumulator. -/
  | mma (m : Bool) (p : BitVec 1) (z : BitVec 1) (f : BitVec 4) (w : BitVec 3) (t : BitVec 6) (c : BitVec 4)
  /-- R220: Queues a compressed weight-stream load into a weight slot. -/
  | mldb (m : Bool) (w : BitVec 3) (a : BitVec 6)
  /-- R225: Queues a move of accumulator rows into a tile, with rounding. -/
  | acc2t (m : Bool) (f : BitVec 4) (u : BitVec 1) (x : BitVec 7) (c : BitVec 4)
  /-- R225: Queues a move of tile rows into an accumulator. -/
  | t2acc (m : Bool) (f : BitVec 4) (x : BitVec 7) (c : BitVec 4)
  /-- R226: Copies an accumulator column quarter into registers once earlier matrix operations are done. -/
  | acc2v (m : Bool) (f : BitVec 4) (u : BitVec 1) (q : BitVec 2) (x : BitVec 7) (c : BitVec 4)
  /-- R227: Queues a write of registers into an accumulator column quarter. -/
  | v2acc (m : Bool) (f : BitVec 4) (q : BitVec 2) (x : BitVec 7) (c : BitVec 4)
  /-- R217: Queues the zeroing of an accumulator's affected rows. -/
  | mzero (m : Bool) (c : BitVec 4)
  /-- R219: Reads and checks a channel permutation table, then queues it. -/
  | mperm (m : Bool) (a : BitVec 6)
  /-- R218: Queues a band-scale write for a weight slot. -/
  | mbandW (m : Bool) (i : BitVec 4) (a : BitVec 7)
  /-- R218: Queues a band-scale write for an accumulator. -/
  | mbandA (m : Bool) (i : BitVec 4) (a : BitVec 7)
  /-- R27: A spilled record whose age reaches 2048 is exchanged with the highest-PC slot. -/
  | spillExchange (core : Nat) (grp : Nat)
  /-- R9: A variable-latency result arrives, is written for its lanes and clears its pending flags. -/
  | resultWriteback (op : Nat)
  /-- R155: A split whose mask meets a deferred record takes its cause before it issues. -/
  | deferredCauseTake (core : Nat) (grp : Nat) (slot : Nat)
  /-- R11: A parked group resumes when its pending count reaches zero. -/
  | groupUnpark (core : Nat) (grp : Nat)
  /-- R152: Once the pending count is zero, the trap registers and frame are written and the handler split starts. -/
  | trapEntry (core : Nat) (grp : Nat)
  /-- R151: A yielding group resumes when its noted set empties or 64 clk pass. -/
  | yieldEnd (core : Nat) (grp : Nat)
  /-- R151: A WAITALL park ends once the results and writes are complete. -/
  | waitallComplete (core : Nat) (grp : Nat)
  /-- R186: A fence completes, invalidating L1 lines for a wide acquire, and the group resumes. -/
  | fenceComplete (core : Nat) (grp : Nat)
  /-- R161: A MAPPG finishes its draws and entry write and returns its outcome per lane. -/
  | mappgComplete (op : Nat)
  /-- R162: A TLB invalidation finishes after all TLBs acknowledge and the accesses drain. -/
  | tlbinvComplete (op : Nat)
  /-- R150: A fully exited group ends once its results and writes are done and releases its resources. -/
  | groupEnd (core : Nat) (grp : Nat)
  /-- R196: After the group's writes are performed, wgsize falls, the rank frees and the elastic words update. -/
  | detachRetire (core : Nat) (grp : Nat)
  /-- R197: A lane's trigger is counted after its device-scope release and the group reports to the distributor. -/
  | triggerCount (core : Nat) (grp : Nat)
  /-- R199: A parked QPUSH receives a slot when one frees. -/
  | qpushGrant (queue : Nat)
  /-- R202: The port agent accepts a publish once the group's window stores are staged and fixes its drain set. -/
  | publishAccept (core : Nat) (grp : Nat) (slot : Nat)
  /-- R202: After every drain write is visible, the version counter is incremented in host memory. -/
  | publishCounterWrite (window : Nat)
  /-- R194: The bank applies the arrivals, drops and attach updates that reach one word in one clk. -/
  | barrierBankUpdate (core : Nat) (offset : Nat) (count : Nat)
  /-- R204: A matrix operation that waited for queue room is accepted. -/
  | matrixQueueAccept (core : Nat)
  /-- R212: The sequencer performs an MMA on the affected accumulator rows. -/
  | mmaPerform (core : Nat)
  /-- R220: The stream arrives and is checked, then the slot image and tag are written, or the mark is set on failure. -/
  | mldbComplete (core : Nat)
  /-- R225: The sequencer performs a queued ACC2T, T2ACC or V2ACC. -/
  | maccPerform (core : Nat)
  /-- R216: The sequencer performs a queued MZERO, MPERM table install or MBAND. -/
  | mctlPerform (core : Nat)
  /-- R219: The 128 table bytes arrive and are checked, and the table is accepted or 0xA9 is taken. -/
  | mpermDataArrive (op : Nat)
  /-- R226: After earlier matrix operations complete, the accumulator values are written to registers. -/
  | acc2vComplete (core : Nat) (grp : Nat) (slot : Nat)
  /-- R215: The sequencer enters or leaves narrow mode at an operation boundary after an alarm change. -/
  | narrowModeChange (core : Nat)
  /-- R233: A waiting TFREE empties and invalidates the entry once its operations are done. -/
  | tfreeComplete (core : Nat) (tile : Nat)
  /-- R243: A copy waiting for queue room or tile state is accepted and changes the tile state. -/
  | copyQueueAccept (core : Nat)
  /-- R246: A copy's writes are performed and its status arrives. -/
  | bcopyComplete (op : Nat)
  /-- R247: An LCOPY's lane bytes are written and its engine arrival is made. -/
  | lcopyComplete (op : Nat)
  /-- R249: Every copy of the batch has completed, and the batch empties into the waited set. -/
  | cwaitComplete (core : Nat) (unit : Nat)
  /-- R254: A sequencer past ENDSEQ becomes ENDED when all its operations complete. -/
  | sequencerEnd (core : Nat) (seq : Nat)
  /-- R255: The parked RDV reports its sequencers or traps with 0xA7 or 0xA8. -/
  | rdvComplete (core : Nat) (grp : Nat)
  /-- R258: When every group has issued its n-th COLL, the member is accepted and its descriptor is read and checked. -/
  | collMemberAccept (core : Nat) (wg : Nat)
  /-- R402: A join reaches the match unit and is entered or fails the entry. -/
  | collJoin (mem : Nat)
  /-- R403: A complete match entry reserves its command entries and sends start notices. -/
  | collStart (hub : Nat)
  /-- R403: A start notice reaches an endpoint and its members' reduction begins. -/
  | startNotice (mem : Nat)
  /-- R261: A member's result is written and its status and device-scope arrival are made. -/
  | collMemberComplete (mem : Nat)
  /-- R408: A collective-plane link, adder or hub fails, and traffic is rerouted or members fail. -/
  | collLinkFail (kind : Nat) (index : Nat) (lane : Nat)
  /-- R409: A start handshake from another package for a spanning collective arrives. -/
  | spanHandshake (comm : Nat) (seq : Nat) (pkg : Nat)
  /-- R263: The exchange record is read and checked, and the post is sent to both Cartographers. -/
  | dpostRecordRead (mem : Nat)
  /-- R410: A post reaches a Cartographer and enters or completes a post set. -/
  | exchangePost (hub : Nat) (mem : Nat)
  /-- R413: A Cartographer issues the calendar to the endpoints and sends an issue notice. -/
  | calendarIssue (hub : Nat) (set : Nat)
  /-- R413: An endpoint keeps the first calendar of a serial and acknowledges every copy. -/
  | calendarReceive (msg : Nat)
  /-- R413: An acknowledgement reaches the Cartographer, which sends the go once all N are held. -/
  | calendarAck (msg : Nat)
  /-- R414: An endpoint starts its phase counter at the first go for a serial. -/
  | goMessage (msg : Nat)
  /-- R414: At g0 plus 8 times start, the endpoint begins sending its phase's data slots. -/
  | exchangePhaseStart (mem : Nat) (phase : Nat)
  /-- R265: All of a member's phases end, and resid, rcvd, roff, the status and the arrival are written. -/
  | exchangeComplete (mem : Nat)
  /-- R415: A Cartographer receives the other's issue notice. -/
  | issueNotice (hub : Nat) (set : Nat)
  /-- R415: A Cartographer receives the other's go notice. -/
  | goNotice (hub : Nat) (set : Nat)
  /-- R415: The standby issues the calendar 10 400 clk after the set completes with no issue seen. -/
  | standbyIssueTimeout (set : Nat)
  /-- R415: 2600 clk after its own issue, the standby sends the go if it holds all acks and saw no notice. -/
  | standbyGoTimeout (set : Nat)
  /-- R415: Without a go notice 10 400 clk after the primary's issue notice, the standby sends the go. -/
  | standbyNogoTimeout (set : Nat)
  /-- R312: A holder answers a read token request by the answer table. -/
  | getsMessage (msg : Nat)
  /-- R312: A holder answers a write token request by the answer table. -/
  | getx (msg : Nat)
  /-- R316: The home records a persistent request and forms a batch when none runs. -/
  | preq (msg : Nat)
  /-- R318: The home activates the next requester of the batch or ends it with DEACT. -/
  | done (msg : Nat)
  /-- R318: A holder sends all its tokens to the activated requester and keeps forwarding them. -/
  | act (msg : Nat)
  /-- R319: A holder withdraws the ACT of equal position or remembers the DEACT. -/
  | deact (msg : Nat)
  /-- R321: A holder returns dirty data, discards its tokens, takes the new serial and answers RACK. -/
  | recr (msg : Nat)
  /-- R328: The port agent recalls host-held tokens by back-invalidate. -/
  | binv (msg : Nat)
  /-- R313: A requester records a refusal for its attempt. -/
  | nack (msg : Nat)
  /-- R313: Tokens without data arrive and are absorbed by the line, miss buffer or home. -/
  | tok (msg : Nat)
  /-- R321: The home records a recreation acknowledgement and completes the recreation when all are held. -/
  | rack (msg : Nat)
  /-- R305: Tokens with data arrive and may complete the requester's need. -/
  | data (msg : Nat)
  /-- R315: The home absorbs an evicting holder's tokens, and its data when it carries the owner token. -/
  | wb (msg : Nat)
  /-- R313: 1300 clk after an attempt, an unmet need causes a broadcast retry or a PREQ. -/
  | attemptDeadline (miss : Nat)
  /-- R321: An activation without DONE for 26 000 clk makes the home recreate the sector. -/
  | recreateTimeout (sector : Nat)
  /-- R323: A held second recreation of a sector starts when its 5200 clk spacing ends. -/
  | recreateDeferred (sector : Nat)
  /-- R319: A remembered DEACT is forgotten after 2600 clk. -/
  | deactMemoryExpire (holder : Nat) (sector : Nat)
  /-- R310: A router drops a message older than 2600 clk. -/
  | messageExpire (msg : Nat)
  /-- R324: An L2 slice with no tokens or pinned lines is power-gated. -/
  | slicePowerGate (die : Nat) (slice : Nat)
  /-- R324: A gated slice wakes for a miss of its own die. -/
  | sliceWake (die : Nat) (slice : Nat)
  /-- R351: A page walk ends with a valid leaf loaded into the TLBs or a fault kind. -/
  | pageWalkComplete (die : Nat) (walk : Nat)
  /-- R345: A way added to a context's mask finishes cleaning and zeroing. -/
  | wayCleanComplete (die : Nat) (way : Nat)
  /-- R328: The port agent serves a host read of device memory by collecting tokens. -/
  | hostMemrd (sector : Nat) (mval : Nat)
  /-- R328: The port agent writes host data, or an M eviction, back to the home with all tokens. -/
  | hostMemwr (sector : Nat) (bytes : List (BitVec 8))
  /-- R328: A host BIRspS or BIRspI arrives, and the agent sends or returns its tokens. -/
  | hostBiResponse (sector : Nat) (inval : Nat) (bytes : List (BitVec 8))
  /-- R329: A host SnpData or SnpInv that needs device-held tokens starts a recall. -/
  | hostSnoop (sector : Nat) (inval : Nat)
  /-- R329: A host answer to RdShared or RdOwn arrives, and the agent grants tokens. -/
  | cxlCacheResponse (sector : Nat) (own : Nat) (bytes : List (BitVec 8))
  /-- R367: The host advances a launch queue's tail, making records available. -/
  | lqTailWrite (ctx : Nat) (cls : Nat) (val : BitVec 32)
  /-- R367: Writes lq.base; a change while the queue is non-empty stops it with err. -/
  | lqBaseWrite (ctx : Nat) (cls : Nat) (val : BitVec 64)
  /-- R367: Writes lq.size; an out-of-range value is ignored and a change while non-empty stops the queue. -/
  | lqSizeWrite (ctx : Nat) (cls : Nat) (val : BitVec 32)
  /-- R368: The distributor reads the record at head, admits or rejects it and advances head. -/
  | launchAdmit (ctx : Nat) (cls : Nat)
  /-- R372: The distributor chooses the next gang and places or restores it on a quad. -/
  | gangPlace
  /-- R370: A queue holding a batch dispatches a consumer gang and writes its dispatch block. -/
  | queueDispatch (launch : Nat)
  /-- R378: A gang's quantum counter reaches its quantum. -/
  | quantumExpire (core : Nat) (wg : Nat)
  /-- R380: The distributor sets shrinkq targets on elastic workgroups to free groups for a waiting gang. -/
  | shrinkRequest (core : Nat) (wg : Nat) (need : Nat)
  /-- R380: After 2600 clk with resources still short, the distributor pre-empts whole gangs. -/
  | shrinkTimeout
  /-- R384: The control processor loads a program image into program-store regions. -/
  | programLoad (core : Nat) (ctx : Nat) (prog : Nat)
  /-- R385: A pre-emption request halts the core's groups, sequencers and engine queues. -/
  | preemptRequest (core : Nat) (ctx : Nat)
  /-- R387: The outgoing context image is written to a save slot. -/
  | contextSave (core : Nat)
  /-- R391: Results held for a saved context are written into its image. -/
  | redirectApply (core : Nat)
  /-- R388: An image is moved from a save slot to backing to free the slot. -/
  | imageToBacking (core : Nat) (slot : Nat)
  /-- R389: A local-store half is written to its owner's backing and handed on. -/
  | lsHalfEvict (core : Nat) (half : Nat)
  /-- R392: A context image is restored to the core and its waiting splits retest. -/
  | contextRestore (core : Nat) (ctx : Nat)
  /-- R371: All workgroups ended and writes performed, the launch status is written at statva. -/
  | launchComplete (launch : Nat)
  /-- R393: A write to ctx.kill starts the kill sequence of a context. -/
  | ctxKill (val : BitVec 32)
  /-- R393: Writes drained, the context's resources are freed, statuses written and frames released. -/
  | ctxKillComplete
  /-- R395: Creates a context from its checked quota record. -/
  | cxCreate
  /-- R395: Loads and checks a live context's stack aperture. -/
  | cxLoadStack
  /-- R364: Checks a frame region, then starts zeroing it for assignment to a context. -/
  | faAssign
  /-- R364: Checks a region, invalidates its TLB entries and clears its owner tags. -/
  | faRelease
  /-- R364: Zeroing of an assigned region ends and its owner tags are written. -/
  | frameZeroComplete
  /-- R400: Opens a communicator from its record for a context. -/
  | commOpen (val : BitVec 64)
  /-- R400: Closes a communicator unless it is in use. -/
  | commClose (val : BitVec 64)
  /-- R359: The host advances the notification head, clearing queued counter entries it passes. -/
  | nqHeadWrite (val : BitVec 32)
  /-- R439: A write with en = 1 checks and registers a publish window. -/
  | pwRegister (window : Nat) (val : BitVec 32)
  /-- R439: A write with en = 0 refuses new stores and starts the unregistration. -/
  | pwUnregister (window : Nat) (val : BitVec 32)
  /-- R439: Accepted publishes drained and later staging discarded, busy returns to 0. -/
  | pwUnregisterComplete (window : Nat)
  /-- R437: A write to a register with no behaviour of its own updates its fields. -/
  | registerWrite (space : Nat) (offset : Nat) (size : Nat) (val : BitVec 64)
  /-- R449: Writing the bundle length starts verification and measurement of the firmware bundle. -/
  | modBoot (len : BitVec 32)
  /-- R457: Writing mod.reset kills every context, unregisters windows and resumes from cold-reset step 3. -/
  | warmReset
  /-- R456: Power-on reset runs the cold-reset sequence. -/
  | coldReset
  /-- R451: Datum answers a signed measurement request through the DOE mailbox. -/
  | spdmGetMeasurements (nonce : List (BitVec 8))
  /-- R436: A UCIe module fails and its flits replay on the remaining modules. -/
  | ucieModuleFail (module : Nat)
  /-- R436: The last UCIe module is lost and 0xE9 stops the affected contexts. -/
  | hostLinkLost
  /-- R446: Setting pp.ctl.en starts port training and a new key exchange. -/
  | ppEnable (port : Nat)
  /-- R444: Writing pp.ctl.roll requests a key rollover. -/
  | ppRoll (port : Nat)
  /-- R443: A sender's flit counter reaches 2^47 and starts a rollover. -/
  | keyCounterLimit (port : Nat)
  /-- R442: A data flit is accepted in order if it verifies, or discarded with a NAK. -/
  | flitData (port : Nat) (seq : Nat) (kidx : Nat) (ok : Bool) (ack : Nat)
  /-- R442: An idle flit arrives and carries acks. -/
  | flitIdle (port : Nat) (ack : Nat)
  /-- R442: The sender replays from the seq after the one the NAK names. -/
  | flitNak (port : Nat) (ack : Nat)
  /-- R444: The receiver discards the old key on an in-order key-retire flit. -/
  | flitKeyRetire (port : Nat) (seq : Nat) (kidx : Nat) (ok : Bool) (ack : Nat)
  /-- R443: A key-exchange flit carries the ML-KEM exchange between Datum instances. -/
  | flitKeyExchange (port : Nat) (bytes : List (BitVec 8))
  /-- R442: No flit for 2600 clk loses the port. -/
  | peerSilenceTimeout (port : Nat)
  /-- R442: A lane loses signal and the port is lost. -/
  | peerLaneLoss (port : Nat) (lane : Nat)
  /-- R452: Writes the module power cap, ignoring values outside 400 to 900. -/
  | aszCapWrite (val : BitVec 32)
  /-- R453: Every 13 000 clk Assize updates die estimates and raises or withdraws alarms. -/
  | powerEstimate (watts : List Nat)
  /-- R454: A junction sensor at 95 or 105 degrees C raises an alarm or a power emergency. -/
  | sensorOvertemp (die : Nat) (celsius : Nat)
  /-- R454: Every 1 ms of input excess, Assize again picks the die with the highest estimate. -/
  | emergencyReselect
  /-- R454: Every sensor below 90 degrees C lets the gated die start work again. -/
  | emergencyClear (die : Nat)
  /-- R460: A core with resident groups makes no progress for wd.period and raises 0xEA. -/
  | watchdogExpire (core : Nat)
  /-- R170: A hardware error raises a machine-class cause that ends the affected workgroups. `core` is the core of its die, 0 to 11; for 0xEB,
  which names a save slot, it is that plus 12 times the slot. -/
  | machineStopCause (cause : BitVec 8) (ctx : Nat) (die : Nat) (core : Nat)
  /-- R87: A fetched encoding that is no instruction (reserved major or f, reserved field code, nonzero zero field, bad operand code), or a fetch outside the region, takes 0x01, 0x02 or 0x07 for the whole split. -/
  | notAnInstruction (cause : BitVec 8)
  /-- R313: The home's HBM read of a sector's data and residue completes, and the home sends its held answers, or starts a recreation when the residue parity fails. -/
  | homeSectorRead (sector : Nat)
  /-- R184: A store, atomic or reduction is acknowledged as performed at its scope, which can release a waiting release store, arrival, trigger or DETACH. -/
  | writeAcknowledged (op : Nat)
  /-- R345: A change to a context's L2 way mask takes effect, and every way newly added for that context starts cleaning. -/
  | wayMaskChange (die : Nat) (ctx : Nat) (mask : BitVec 16)
  /-- R388: The 768 clk zeroing of a save slot after its restore or release ends, and the slot becomes free. -/
  | saveSlotZeroed (core : Nat) (slot : Nat)
  /-- R445: A peer port finishes training, pp.stat.up becomes 1, and the key exchange can begin. -/
  | peerPortTrained (port : Nat)
  /-- R454: The module input has exceeded 9.45 kW for 1300 clk with every alarm raised, and Assize declares an emergency on the die with the highest estimate. -/
  | inputPowerExcess
  /-- R449: Verification of the firmware bundle ends, and either sets mod.stat.boot with a failure number or proceeds to measurement, supervisor load and Survey start. -/
  | bundleVerifyComplete
  /-- R451: Survey writes Q or the Gazetteer, which changes placement mapping and extends measurement slot 5. -/
  | gazetteerWrite (group : Nat) (value : Nat)
  /-- R450: A Survey access to a protected resource is refused, and an error record with src 5 is posted. -/
  | surveyAccessRefused (resource : Nat)
  /-- R435: An IDE_KM message arrives through the DOE mailbox and installs or manages CXL and PCIe IDE keys. -/
  | ideKmRequest (bytes : List (BitVec 8))
deriving DecidableEq, Repr

end Sys2Proof
end

