-- ==== Sys2Proof/WellFormed.lean ====
section
/-! DEFINITION. Which terms of `Instr` are instructions: every field rule of R77 to R87 that the encoding alone decides. A term
that breaks one encodes words that take cause 0x02. The rules that depend on the state (register count, tile attributes,
mode) are in the meanings. -/

namespace Sys2Proof

namespace WF

/-- R77: a register pair is named by an even code. -/
def even (r : BitVec 7) : Bool := r.toNat % 2 == 0

/-- R77: a group of four registers is named by a code that is a multiple of 4. -/
def quad (r : BitVec 7) : Bool := r.toNat % 4 == 0

/-- R241: the eight registers of a block copy are named by a code that is a multiple of 8. -/
def octet (r : BitVec 7) : Bool := r.toNat % 8 == 0

/-- R79: scope codes 6 and 7 are reserved. -/
def scopeOk (c : BitVec 3) : Bool := decide (c.toNat ≤ 5)

/-- R77 with the size codes of R80: 64 bits need a pair, 128 bits a group of four. -/
def aligned (z : BitVec 3) (r : BitVec 7) : Bool :=
  (z != 3 || even r) && (z != 4 || quad r)

/-- R13: the selectors of the special registers. -/
def selector (e : BitVec 6) : Bool :=
  let n := e.toNat
  decide (n ≤ 4) || (decide (8 ≤ n) && decide (n ≤ 14)) || (decide (16 ≤ n) && decide (n ≤ 19))

/-- R13: the special registers of 64 bits, `trapaddr` and `trapsplit`. -/
def wideSelector (e : BitVec 6) : Bool := e == 0x11 || e == 0x13

/-- R224: the formats that a move of accumulators takes. -/
def accFmt (f : BitVec 4) : Bool := decide (6 ≤ f.toNat) && decide (f.toNat ≤ 10)

/-- R226: how many registers a column quarter occupies in format `f`. -/
def accRegs (f : BitVec 4) : Nat := if f == 6 then 8 else if f.toNat ≤ 8 then 4 else 2

/-- R226: the register operand of ACC2V and V2ACC. -/
def accReg (f : BitVec 4) (x : BitVec 7) : Bool := decide (x.toNat < 96) && x.toNat % accRegs f == 0

end WF

open WF in
/-- The field rules of each instruction. The other agents' steps have no encoding and no field rule. -/
def wellFormed : Instr → Bool
  | .mov_16 _ b d => !(b == 0 && d == 0)
  | .movi_16 _ _ _ => true
  | .addI32_16 _ _ _ => true
  | .addi_16 _ _ _ => true
  | .subI32_16 _ _ _ => true
  | .mulI32_16 _ _ _ => true
  | .and_16 _ _ _ => true
  | .or_16 _ _ _ => true
  | .xor_16 _ _ _ => true
  | .shl_16 _ _ _ => true
  | .shli_16 _ _ _ => true
  | .shri_16 _ _ _ => true
  | .sari_16 _ _ _ => true
  | .faddF32_16 _ _ _ => true
  | .fmulF32_16 _ _ _ => true
  | .fsubF32_16 _ _ _ => true
  | .nop => true
  | .nopMarker => true
  | .addI32 _ _ _ _ => true
  | .subI32 _ _ _ _ => true
  | .addsI32 _ _ _ _ => true
  | .subsI32 _ _ _ _ => true
  | .mulI32 _ _ _ _ => true
  | .mulhiI32 _ _ _ _ => true
  | .mulhiN32 _ _ _ _ => true
  | .mulwI32 _ _ _ d => even d
  | .madI32 _ _ _ _ => true
  | .madwI32 _ _ _ d => even d
  | .madwN32 _ _ _ d => even d
  | .sadN32 _ _ _ _ => true
  | .minI32 _ _ _ _ => true
  | .maxI32 _ _ _ _ => true
  | .minN32 _ _ _ _ => true
  | .maxN32 _ _ _ _ => true
  | .and _ _ _ _ => true
  | .or _ _ _ _ => true
  | .xor _ _ _ _ => true
  | .andn _ _ _ _ => true
  | .shl _ _ _ _ => true
  | .shr _ _ _ _ => true
  | .sar _ _ _ _ => true
  | .rol _ _ _ _ => true
  | .popc _ _ _ => true
  | .clz _ _ _ => true
  | .brev _ _ _ => true
  | .ffs _ _ _ => true
  | .bfxN32 _ _ _ _ => true
  | .bfxI32 _ _ _ _ => true
  | .bfi _ _ _ _ => true
  | .bysel _ _ _ _ => true
  | .absI32 _ _ _ => true
  | .negI32 _ _ _ => true
  | .sext _ _ _ _ => true
  | .zext _ _ _ _ => true
  | .addI64 _ b a d => even d && even a && even b
  | .subI64 _ b a d => even d && even a && even b
  | .shlI64 _ _ a d => even d && even a
  | .shrN64 _ _ a d => even d && even a
  | .shrrI32 _ _ _ _ => true
  | .shrrnI16 _ _ _ _ => true
  | .satnI16 _ _ _ => true
  | .satnI8 _ _ _ => true
  | .paddI16x2 _ _ _ _ => true
  | .psubI16x2 _ _ _ _ => true
  | .pmulI16x2 _ _ _ _ => true
  | .pmaxI16x2 _ _ _ _ => true
  | .pmad2I16 _ _ _ _ => true
  | .pmad2xI16 _ _ _ _ => true
  | .pmad4I8 _ _ _ _ => true
  | .pmad2N16 _ _ _ _ => true
  | .pack16 _ _ _ _ => true
  | .unpkloI16 _ _ _ => true
  | .unpkhiI16 _ _ _ => true
  | .pshrrI16x2 _ _ _ _ => true
  | .selP0P3 _ _ _ _ _ => true
  | .selP4P7 _ _ _ _ _ => true
  | .icmpI32 _ _ _ _ k _ => decide (k.toNat ≤ 5)
  | .icmpN32 _ _ _ _ k _ => decide (k.toNat ≤ 5)
  | .fcmpF32 _ _ _ _ k _ => decide (k.toNat ≤ 7)
  | .icmpiI32 _ _ _ _ k _ => decide (k.toNat ≤ 5)
  | .plog _ _ _ _ _ => true
  | .movi _ _ _ => true
  | .movhi _ _ _ => true
  | .addi _ _ _ _ => true
  | .andi _ _ _ _ => true
  | .ori _ _ _ _ => true
  | .xori _ _ _ _ => true
  | .shli _ _ _ _ => true
  | .shri _ _ _ _ => true
  | .sari _ _ _ _ => true
  | .roli _ _ _ _ => true
  | .muli _ _ _ _ => true
  | .faddF32 _ _ _ _ => true
  | .fsubF32 _ _ _ _ => true
  | .fmulF32 _ _ _ _ => true
  | .ffmaF32 _ _ _ _ => true
  | .fminF32 _ _ _ _ => true
  | .fmaxF32 _ _ _ _ => true
  | .fabsF32 _ _ _ => true
  | .fnegF32 _ _ _ => true
  | .haddBf16x2 _ _ _ _ => true
  | .hmulBf16x2 _ _ _ _ => true
  | .hfmaBf16x2 _ _ _ _ => true
  | .hmaxBf16x2 _ _ _ _ => true
  | .haddF16x2 _ _ _ _ => true
  | .hmulF16x2 _ _ _ _ => true
  | .hfmaF16x2 _ _ _ _ => true
  | .hmaxF16x2 _ _ _ _ => true
  | .rcpF32 _ _ _ => true
  | .rsqF32 _ _ _ => true
  | .exp2F32 _ _ _ => true
  | .log2F32 _ _ _ => true
  | .fdivF32 _ _ _ _ => true
  | .sqrtF32 _ _ _ => true
  | .frndF32 _ _ _ => true
  | .fclsF32 _ _ _ => true
  | .cvt _ _ r t a d => decide (r.toNat ≤ 12) && decide (t.toNat ≤ 12) && (r != 12 || even a) && (t != 12 || even d)
  | .cvtz _ _ r t _ d => decide (6 ≤ r.toNat) && decide (r.toNat ≤ 11) && (decide (t.toNat ≤ 5) || t == 12) && (t != 12 || even d)
  | .qntFp4b8 _ _ _ d => even d
  | .qntMxfp4 _ _ d => even d
  | .dqntFp4b8 _ _ a _ => even a
  | .lxchPick _ _ _ _ => true
  | .lxchRotr _ _ _ _ => true
  | .lxchRotl _ _ _ _ => true
  | .lxchRev _ _ _ _ => true
  | .slideUp1H _ _ _ _ => true
  | .slideDn1H _ _ _ _ => true
  | .slideUp1W _ _ _ _ => true
  | .slideDn1W _ _ _ _ => true
  | .lmaskSet _ _ _ => true
  | .lmaskCnt _ _ _ => true
  | .lmaskPfx _ _ _ => true
  | .lmaskFirst _ _ _ => true
  | .gredAddI32 _ _ _ => true
  | .gredMaxI32 _ _ _ => true
  | .gredMinI32 _ _ _ => true
  | .gredAddF32 _ _ _ => true
  | .bra _ _ => true
  | .brp _ _ _ _ => true
  | .call _ _ => true
  | .ret _ => true
  | .jtab _ n _ => n != 0
  | .loop _ _ _ => true
  | .exit _ => true
  | .nop32 _ => true
  | .waitall _ => true
  | .yield _ => true
  | .trap _ _ => true
  | .rft _ => true
  | .gets _ e d => selector e && (!wideSelector e || even d)
  | .sets _ e a => selector e && (!wideSelector e || even a)
  | .mappg _ _ _ _ => true
  | .tlbinvPage _ _ => true
  | .tlbinvCtx _ => true
  | .halt _ => true
  | .ld _ x _ _ c z _ d => scopeOk c && decide (z.toNat ≤ 4) && (x == 0 || decide (z.toNat ≤ 1)) && aligned z d
  | .st _ _ _ c z _ v => scopeOk c && decide (z.toNat ≤ 4) && aligned z v
  | .lds _ _ _ c z _ d => scopeOk c && decide (z.toNat ≤ 3) && decide (96 ≤ d.toNat) && aligned z d
  | .ldx _ x _ _ c z _ d => scopeOk c && (z == 2 || z == 3) && x == 0 && aligned z d
  | .pref _ _ c _ => scopeOk c
  | .ptrmk _ _ _ d => even d
  | .ptrsp _ a _ => even a
  | .ptrrk _ _ a d => even d && even a
  | .ptroff _ _ a d => even d && even a
  | .fence _ k c => decide (k.toNat ≤ 2) && scopeOk c
  | .atomAddI32 _ c _ _ _ => scopeOk c
  | .atomMinI32 _ c _ _ _ => scopeOk c
  | .atomMaxI32 _ c _ _ _ => scopeOk c
  | .atomMinN32 _ c _ _ _ => scopeOk c
  | .atomMaxN32 _ c _ _ _ => scopeOk c
  | .atomAnd _ c _ _ _ => scopeOk c
  | .atomOr _ c _ _ _ => scopeOk c
  | .atomXor _ c _ _ _ => scopeOk c
  | .atomXchg _ c _ _ _ => scopeOk c
  | .atomCas _ c v _ _ => scopeOk c && even v
  | .atomAddI64 _ c v _ d => scopeOk c && even d && even v
  | .atomCasI64 _ c v _ d => scopeOk c && even d && quad v
  | .atomFaddF32 _ c _ _ _ => scopeOk c
  | .redAddI32 _ c _ _ => scopeOk c
  | .redAddI64 _ c v _ => scopeOk c && even v
  | .redMinI32 _ c _ _ => scopeOk c
  | .redMaxI32 _ c _ _ => scopeOk c
  | .redMinN32 _ c _ _ => scopeOk c
  | .redMaxN32 _ c _ _ => scopeOk c
  | .redAnd _ c _ _ => scopeOk c
  | .redOr _ c _ _ => scopeOk c
  | .redXor _ c _ _ => scopeOk c
  | .redFaddF32 _ c _ _ => scopeOk c
  | .redFaddBf16x2 _ c _ _ => scopeOk c
  | .redFaddFp8 _ c _ _ => scopeOk c
  | .barArv _ _ _ => true
  | .barArvdrop _ _ _ => true
  | .barWait _ _ _ => true
  | .barSync _ _ => true
  | .binit _ _ _ => true
  | .attach _ _ _ => true
  | .detach _ => true
  | .trigger _ => true
  | .qpush _ _ d => even d
  | .qpop _ _ _ => true
  | .qfree _ _ => true
  | .publish _ _ => true
  | .bcopyG2l _ _ c _ _ => octet c
  | .bcopyL2g _ _ c _ _ => octet c
  | .lcopy _ _ _ v => even v
  | .cseal _ _ => true
  | .cwait _ _ => true
  | .tsetup _ _ _ => true
  | .tfree _ _ => true
  | .tstate _ _ d => even d
  | .tdrain _ _ => true
  | .fork _ _ _ => true
  | .rdv _ _ => true
  | .endseq _ => true
  | .coll _ _ _ _ _ => true
  | .dpost _ _ _ _ => true
  | .mma _ p _ f _ _ _ => decide (f.toNat ≤ 8) && (p == 0 || decide (7 ≤ f.toNat))
  | .mldb _ _ _ => true
  | .acc2t _ f _ x _ => accFmt f && decide (x.toNat < 64)
  | .t2acc _ f x _ => accFmt f && decide (x.toNat < 64)
  | .acc2v _ f _ _ x _ => accFmt f && accReg f x
  | .v2acc _ f _ x _ => accFmt f && accReg f x
  | .mzero _ _ => true
  | .mperm _ _ => true
  | .mbandW _ i _ => decide (i.toNat < 8)
  | .mbandA _ _ _ => true
  | .spillExchange _ _ => true
  | .resultWriteback _ => true
  | .deferredCauseTake _ _ _ => true
  | .groupUnpark _ _ => true
  | .trapEntry _ _ => true
  | .yieldEnd _ _ => true
  | .waitallComplete _ _ => true
  | .fenceComplete _ _ => true
  | .mappgComplete _ => true
  | .tlbinvComplete _ => true
  | .groupEnd _ _ => true
  | .detachRetire _ _ => true
  | .triggerCount _ _ => true
  | .qpushGrant _ => true
  | .publishAccept _ _ _ => true
  | .publishCounterWrite _ => true
  | .barrierBankUpdate _ _ _ => true
  | .matrixQueueAccept _ => true
  | .mmaPerform _ => true
  | .mldbComplete _ => true
  | .maccPerform _ => true
  | .mctlPerform _ => true
  | .mpermDataArrive _ => true
  | .acc2vComplete _ _ _ => true
  | .narrowModeChange _ => true
  | .tfreeComplete _ _ => true
  | .copyQueueAccept _ => true
  | .bcopyComplete _ => true
  | .lcopyComplete _ => true
  | .cwaitComplete _ _ => true
  | .sequencerEnd _ _ => true
  | .rdvComplete _ _ => true
  | .collMemberAccept _ _ => true
  | .collJoin _ => true
  | .collStart _ => true
  | .startNotice _ => true
  | .collMemberComplete _ => true
  | .collLinkFail _ _ _ => true
  | .spanHandshake _ _ _ => true
  | .dpostRecordRead _ => true
  | .exchangePost _ _ => true
  | .calendarIssue _ _ => true
  | .calendarReceive _ => true
  | .calendarAck _ => true
  | .goMessage _ => true
  | .exchangePhaseStart _ _ => true
  | .exchangeComplete _ => true
  | .issueNotice _ _ => true
  | .goNotice _ _ => true
  | .standbyIssueTimeout _ => true
  | .standbyGoTimeout _ => true
  | .standbyNogoTimeout _ => true
  | .getsMessage _ => true
  | .getx _ => true
  | .preq _ => true
  | .done _ => true
  | .act _ => true
  | .deact _ => true
  | .recr _ => true
  | .binv _ => true
  | .nack _ => true
  | .tok _ => true
  | .rack _ => true
  | .data _ => true
  | .wb _ => true
  | .attemptDeadline _ => true
  | .recreateTimeout _ => true
  | .recreateDeferred _ => true
  | .deactMemoryExpire _ _ => true
  | .messageExpire _ => true
  | .slicePowerGate _ _ => true
  | .sliceWake _ _ => true
  | .pageWalkComplete _ _ => true
  | .wayCleanComplete _ _ => true
  | .hostMemrd _ _ => true
  | .hostMemwr _ _ => true
  | .hostBiResponse _ _ _ => true
  | .hostSnoop _ _ => true
  | .cxlCacheResponse _ _ _ => true
  | .lqTailWrite _ _ _ => true
  | .lqBaseWrite _ _ _ => true
  | .lqSizeWrite _ _ _ => true
  | .launchAdmit _ _ => true
  | .gangPlace => true
  | .queueDispatch _ => true
  | .quantumExpire _ _ => true
  | .shrinkRequest _ _ _ => true
  | .shrinkTimeout => true
  | .programLoad _ _ _ => true
  | .preemptRequest _ _ => true
  | .contextSave _ => true
  | .redirectApply _ => true
  | .imageToBacking _ _ => true
  | .lsHalfEvict _ _ => true
  | .contextRestore _ _ => true
  | .launchComplete _ => true
  | .ctxKill _ => true
  | .ctxKillComplete => true
  | .cxCreate => true
  | .cxLoadStack => true
  | .faAssign => true
  | .faRelease => true
  | .frameZeroComplete => true
  | .commOpen _ => true
  | .commClose _ => true
  | .nqHeadWrite _ => true
  | .pwRegister _ _ => true
  | .pwUnregister _ _ => true
  | .pwUnregisterComplete _ => true
  | .registerWrite _ _ _ _ => true
  | .modBoot _ => true
  | .warmReset => true
  | .coldReset => true
  | .spdmGetMeasurements _ => true
  | .ucieModuleFail _ => true
  | .hostLinkLost => true
  | .ppEnable _ => true
  | .ppRoll _ => true
  | .keyCounterLimit _ => true
  | .flitData _ _ _ _ _ => true
  | .flitIdle _ _ => true
  | .flitNak _ _ => true
  | .flitKeyRetire _ _ _ _ _ => true
  | .flitKeyExchange _ _ => true
  | .peerSilenceTimeout _ => true
  | .peerLaneLoss _ _ => true
  | .aszCapWrite _ => true
  | .powerEstimate _ => true
  | .sensorOvertemp _ _ => true
  | .emergencyReselect => true
  | .emergencyClear _ => true
  | .watchdogExpire _ => true
  | .machineStopCause _ _ _ _ => true
  | .notAnInstruction _ => true
  | .homeSectorRead _ => true
  | .writeAcknowledged _ => true
  | .wayMaskChange _ _ _ => true
  | .saveSlotZeroed _ _ => true
  | .peerPortTrained _ => true
  | .inputPowerExcess => true
  | .bundleVerifyComplete => true
  | .gazetteerWrite _ _ => true
  | .surveyAccessRefused _ => true
  | .ideKmRequest _ => true

end Sys2Proof
end

