-- ==== Sys2Proof/Decode.lean ====
section
/-! DEFINITION. The decoder, total on any parcels, and after it the encoder. A word is a `Nat` below 2^32 whose low half is the
first parcel (R67). The decoder follows the formats of R73 to R75 and the major map of R86; what is no instruction is
rejected with the cause that R87 gives it. The encoder is written from the same tables: a row's fixed bits plus its fields. -/

namespace Sys2Proof

/-- What the decoder reads: an instruction and its length in parcels, or the cause of an encoding that is none (R87). -/
inductive Decoded where
  | instr (i : Instr) (len : Nat)
  | reject (cause : BitVec 8)
deriving DecidableEq, Repr

namespace Dec

/-- The `n`-bit field of `w` whose lowest bit is `lo`. -/
def bf (w lo n : Nat) : BitVec n := BitVec.ofNat n (w / 2 ^ lo)

/-- R67: the switch marker, bit 1. -/
def mk (w : Nat) : Bool := w / 2 % 2 == 1

/-- R75: a zero field of `n` bits at `lo`. -/
def zf (w lo n : Nat) : Bool := w / 2 ^ lo % 2 ^ n == 0

/-- The field rules of R87 on a 32-bit instruction. -/
def chk (i : Instr) : Decoded := if wellFormed i then .instr i 2 else .reject 2

end Dec

open Dec

/-- R72 to R74: the 16-bit form. Every parcel with bit 0 clear is an instruction. -/
def decode16 (w : Nat) : Decoded :=
  if w = 0 then .instr .nop 1
  else if w = 2 then .instr .nopMarker 1
  else match w / 4 % 16 with
    | 0 => .instr (.mov_16 (mk w) (bf w 11 5) (bf w 6 5)) 1
    | 1 => .instr (.movi_16 (mk w) (bf w 11 5) (bf w 6 5)) 1
    | 2 => .instr (.addI32_16 (mk w) (bf w 11 5) (bf w 6 5)) 1
    | 3 => .instr (.addi_16 (mk w) (bf w 11 5) (bf w 6 5)) 1
    | 4 => .instr (.subI32_16 (mk w) (bf w 11 5) (bf w 6 5)) 1
    | 5 => .instr (.mulI32_16 (mk w) (bf w 11 5) (bf w 6 5)) 1
    | 6 => .instr (.and_16 (mk w) (bf w 11 5) (bf w 6 5)) 1
    | 7 => .instr (.or_16 (mk w) (bf w 11 5) (bf w 6 5)) 1
    | 8 => .instr (.xor_16 (mk w) (bf w 11 5) (bf w 6 5)) 1
    | 9 => .instr (.shl_16 (mk w) (bf w 11 5) (bf w 6 5)) 1
    | 10 => .instr (.shli_16 (mk w) (bf w 11 5) (bf w 6 5)) 1
    | 11 => .instr (.shri_16 (mk w) (bf w 11 5) (bf w 6 5)) 1
    | 12 => .instr (.sari_16 (mk w) (bf w 11 5) (bf w 6 5)) 1
    | 13 => .instr (.faddF32_16 (mk w) (bf w 11 5) (bf w 6 5)) 1
    | 14 => .instr (.fmulF32_16 (mk w) (bf w 11 5) (bf w 6 5)) 1
    | _ => .instr (.fsubF32_16 (mk w) (bf w 11 5) (bf w 6 5)) 1

/-- R75, R84 to R86: the 32-bit form, by major opcode and variant. -/
def decode32 (w : Nat) : Decoded :=
  match w / 4 % 128 with
  | 0 => match w / 1073741824 % 4 with
    | 0 => chk (.addI32 (mk w) (bf w 23 7) (bf w 16 7) (bf w 9 7))
    | 1 => chk (.subI32 (mk w) (bf w 23 7) (bf w 16 7) (bf w 9 7))
    | 2 => chk (.addsI32 (mk w) (bf w 23 7) (bf w 16 7) (bf w 9 7))
    | 3 => chk (.subsI32 (mk w) (bf w 23 7) (bf w 16 7) (bf w 9 7))
    | _ => .reject 1
  | 1 => match w / 1073741824 % 4 with
    | 0 => chk (.mulI32 (mk w) (bf w 23 7) (bf w 16 7) (bf w 9 7))
    | 1 => chk (.mulhiI32 (mk w) (bf w 23 7) (bf w 16 7) (bf w 9 7))
    | 2 => chk (.mulhiN32 (mk w) (bf w 23 7) (bf w 16 7) (bf w 9 7))
    | 3 => chk (.mulwI32 (mk w) (bf w 23 7) (bf w 16 7) (bf w 9 7))
    | _ => .reject 1
  | 2 => match w / 1073741824 % 4 with
    | 0 => chk (.madI32 (mk w) (bf w 23 7) (bf w 16 7) (bf w 9 7))
    | 1 => chk (.madwI32 (mk w) (bf w 23 7) (bf w 16 7) (bf w 9 7))
    | 2 => chk (.madwN32 (mk w) (bf w 23 7) (bf w 16 7) (bf w 9 7))
    | 3 => chk (.sadN32 (mk w) (bf w 23 7) (bf w 16 7) (bf w 9 7))
    | _ => .reject 1
  | 3 => match w / 1073741824 % 4 with
    | 0 => chk (.minI32 (mk w) (bf w 23 7) (bf w 16 7) (bf w 9 7))
    | 1 => chk (.maxI32 (mk w) (bf w 23 7) (bf w 16 7) (bf w 9 7))
    | 2 => chk (.minN32 (mk w) (bf w 23 7) (bf w 16 7) (bf w 9 7))
    | 3 => chk (.maxN32 (mk w) (bf w 23 7) (bf w 16 7) (bf w 9 7))
    | _ => .reject 1
  | 4 => match w / 1073741824 % 4 with
    | 0 => chk (.and (mk w) (bf w 23 7) (bf w 16 7) (bf w 9 7))
    | 1 => chk (.or (mk w) (bf w 23 7) (bf w 16 7) (bf w 9 7))
    | 2 => chk (.xor (mk w) (bf w 23 7) (bf w 16 7) (bf w 9 7))
    | 3 => chk (.andn (mk w) (bf w 23 7) (bf w 16 7) (bf w 9 7))
    | _ => .reject 1
  | 5 => match w / 1073741824 % 4 with
    | 0 => chk (.shl (mk w) (bf w 23 7) (bf w 16 7) (bf w 9 7))
    | 1 => chk (.shr (mk w) (bf w 23 7) (bf w 16 7) (bf w 9 7))
    | 2 => chk (.sar (mk w) (bf w 23 7) (bf w 16 7) (bf w 9 7))
    | 3 => chk (.rol (mk w) (bf w 23 7) (bf w 16 7) (bf w 9 7))
    | _ => .reject 1
  | 6 => match w / 1073741824 % 4 with
    | 0 => if zf w 23 7 then chk (.popc (mk w) (bf w 16 7) (bf w 9 7)) else .reject 2
    | 1 => if zf w 23 7 then chk (.clz (mk w) (bf w 16 7) (bf w 9 7)) else .reject 2
    | 2 => if zf w 23 7 then chk (.brev (mk w) (bf w 16 7) (bf w 9 7)) else .reject 2
    | 3 => if zf w 23 7 then chk (.ffs (mk w) (bf w 16 7) (bf w 9 7)) else .reject 2
    | _ => .reject 1
  | 7 => match w / 1073741824 % 4 with
    | 0 => chk (.bfxN32 (mk w) (bf w 23 7) (bf w 16 7) (bf w 9 7))
    | 1 => chk (.bfxI32 (mk w) (bf w 23 7) (bf w 16 7) (bf w 9 7))
    | 2 => chk (.bfi (mk w) (bf w 23 7) (bf w 16 7) (bf w 9 7))
    | 3 => chk (.bysel (mk w) (bf w 23 7) (bf w 16 7) (bf w 9 7))
    | _ => .reject 1
  | 8 => match w / 1073741824 % 4 with
    | 0 => if zf w 23 7 then chk (.absI32 (mk w) (bf w 16 7) (bf w 9 7)) else .reject 2
    | 1 => if zf w 23 7 then chk (.negI32 (mk w) (bf w 16 7) (bf w 9 7)) else .reject 2
    | 2 => chk (.sext (mk w) (bf w 23 7) (bf w 16 7) (bf w 9 7))
    | 3 => chk (.zext (mk w) (bf w 23 7) (bf w 16 7) (bf w 9 7))
    | _ => .reject 1
  | 9 => match w / 1073741824 % 4 with
    | 0 => chk (.addI64 (mk w) (bf w 23 7) (bf w 16 7) (bf w 9 7))
    | 1 => chk (.subI64 (mk w) (bf w 23 7) (bf w 16 7) (bf w 9 7))
    | 2 => chk (.shlI64 (mk w) (bf w 23 7) (bf w 16 7) (bf w 9 7))
    | 3 => chk (.shrN64 (mk w) (bf w 23 7) (bf w 16 7) (bf w 9 7))
    | _ => .reject 1
  | 10 => match w / 1073741824 % 4 with
    | 0 => chk (.shrrI32 (mk w) (bf w 23 7) (bf w 16 7) (bf w 9 7))
    | 1 => chk (.shrrnI16 (mk w) (bf w 23 7) (bf w 16 7) (bf w 9 7))
    | 2 => if zf w 23 7 then chk (.satnI16 (mk w) (bf w 16 7) (bf w 9 7)) else .reject 2
    | 3 => if zf w 23 7 then chk (.satnI8 (mk w) (bf w 16 7) (bf w 9 7)) else .reject 2
    | _ => .reject 1
  | 11 => match w / 1073741824 % 4 with
    | 0 => chk (.paddI16x2 (mk w) (bf w 23 7) (bf w 16 7) (bf w 9 7))
    | 1 => chk (.psubI16x2 (mk w) (bf w 23 7) (bf w 16 7) (bf w 9 7))
    | 2 => chk (.pmulI16x2 (mk w) (bf w 23 7) (bf w 16 7) (bf w 9 7))
    | 3 => chk (.pmaxI16x2 (mk w) (bf w 23 7) (bf w 16 7) (bf w 9 7))
    | _ => .reject 1
  | 12 => match w / 1073741824 % 4 with
    | 0 => chk (.pmad2I16 (mk w) (bf w 23 7) (bf w 16 7) (bf w 9 7))
    | 1 => chk (.pmad2xI16 (mk w) (bf w 23 7) (bf w 16 7) (bf w 9 7))
    | 2 => chk (.pmad4I8 (mk w) (bf w 23 7) (bf w 16 7) (bf w 9 7))
    | 3 => chk (.pmad2N16 (mk w) (bf w 23 7) (bf w 16 7) (bf w 9 7))
    | _ => .reject 1
  | 13 => match w / 1073741824 % 4 with
    | 0 => chk (.pack16 (mk w) (bf w 23 7) (bf w 16 7) (bf w 9 7))
    | 1 => if zf w 23 7 then chk (.unpkloI16 (mk w) (bf w 16 7) (bf w 9 7)) else .reject 2
    | 2 => if zf w 23 7 then chk (.unpkhiI16 (mk w) (bf w 16 7) (bf w 9 7)) else .reject 2
    | 3 => chk (.pshrrI16x2 (mk w) (bf w 23 7) (bf w 16 7) (bf w 9 7))
    | _ => .reject 1
  | 16 => chk (.selP0P3 (mk w) (bf w 30 2) (bf w 23 7) (bf w 16 7) (bf w 9 7))
  | 17 => chk (.selP4P7 (mk w) (bf w 30 2) (bf w 23 7) (bf w 16 7) (bf w 9 7))
  | 18 => chk (.icmpI32 (mk w) (bf w 30 2) (bf w 23 7) (bf w 16 7) (bf w 12 4) (bf w 9 3))
  | 19 => chk (.icmpN32 (mk w) (bf w 30 2) (bf w 23 7) (bf w 16 7) (bf w 12 4) (bf w 9 3))
  | 20 => chk (.fcmpF32 (mk w) (bf w 30 2) (bf w 23 7) (bf w 16 7) (bf w 12 4) (bf w 9 3))
  | 21 => chk (.icmpiI32 (mk w) (bf w 30 2) (bf w 23 7) (bf w 16 7) (bf w 12 4) (bf w 9 3))
  | 22 => if zf w 22 10 then chk (.plog (mk w) (bf w 18 4) (bf w 15 3) (bf w 12 3) (bf w 9 3)) else .reject 2
  | 24 => chk (.movi (mk w) (bf w 16 16) (bf w 9 7))
  | 25 => chk (.movhi (mk w) (bf w 16 16) (bf w 9 7))
  | 26 => chk (.addi (mk w) (bf w 23 9) (bf w 16 7) (bf w 9 7))
  | 27 => chk (.andi (mk w) (bf w 23 9) (bf w 16 7) (bf w 9 7))
  | 28 => chk (.ori (mk w) (bf w 23 9) (bf w 16 7) (bf w 9 7))
  | 29 => chk (.xori (mk w) (bf w 23 9) (bf w 16 7) (bf w 9 7))
  | 30 => match w / 268435456 % 4 with
    | 0 => if zf w 30 2 then chk (.shli (mk w) (bf w 23 5) (bf w 16 7) (bf w 9 7)) else .reject 2
    | 1 => if zf w 30 2 then chk (.shri (mk w) (bf w 23 5) (bf w 16 7) (bf w 9 7)) else .reject 2
    | 2 => if zf w 30 2 then chk (.sari (mk w) (bf w 23 5) (bf w 16 7) (bf w 9 7)) else .reject 2
    | 3 => if zf w 30 2 then chk (.roli (mk w) (bf w 23 5) (bf w 16 7) (bf w 9 7)) else .reject 2
    | _ => .reject 2
  | 31 => chk (.muli (mk w) (bf w 23 9) (bf w 16 7) (bf w 9 7))
  | 32 => match w / 1073741824 % 4 with
    | 0 => chk (.faddF32 (mk w) (bf w 23 7) (bf w 16 7) (bf w 9 7))
    | 1 => chk (.fsubF32 (mk w) (bf w 23 7) (bf w 16 7) (bf w 9 7))
    | 2 => chk (.fmulF32 (mk w) (bf w 23 7) (bf w 16 7) (bf w 9 7))
    | 3 => chk (.ffmaF32 (mk w) (bf w 23 7) (bf w 16 7) (bf w 9 7))
    | _ => .reject 1
  | 33 => match w / 1073741824 % 4 with
    | 0 => chk (.fminF32 (mk w) (bf w 23 7) (bf w 16 7) (bf w 9 7))
    | 1 => chk (.fmaxF32 (mk w) (bf w 23 7) (bf w 16 7) (bf w 9 7))
    | 2 => if zf w 23 7 then chk (.fabsF32 (mk w) (bf w 16 7) (bf w 9 7)) else .reject 2
    | 3 => if zf w 23 7 then chk (.fnegF32 (mk w) (bf w 16 7) (bf w 9 7)) else .reject 2
    | _ => .reject 1
  | 34 => match w / 1073741824 % 4 with
    | 0 => chk (.haddBf16x2 (mk w) (bf w 23 7) (bf w 16 7) (bf w 9 7))
    | 1 => chk (.hmulBf16x2 (mk w) (bf w 23 7) (bf w 16 7) (bf w 9 7))
    | 2 => chk (.hfmaBf16x2 (mk w) (bf w 23 7) (bf w 16 7) (bf w 9 7))
    | 3 => chk (.hmaxBf16x2 (mk w) (bf w 23 7) (bf w 16 7) (bf w 9 7))
    | _ => .reject 1
  | 35 => match w / 1073741824 % 4 with
    | 0 => chk (.haddF16x2 (mk w) (bf w 23 7) (bf w 16 7) (bf w 9 7))
    | 1 => chk (.hmulF16x2 (mk w) (bf w 23 7) (bf w 16 7) (bf w 9 7))
    | 2 => chk (.hfmaF16x2 (mk w) (bf w 23 7) (bf w 16 7) (bf w 9 7))
    | 3 => chk (.hmaxF16x2 (mk w) (bf w 23 7) (bf w 16 7) (bf w 9 7))
    | _ => .reject 1
  | 36 => match w / 1073741824 % 4 with
    | 0 => if zf w 23 7 then chk (.rcpF32 (mk w) (bf w 16 7) (bf w 9 7)) else .reject 2
    | 1 => if zf w 23 7 then chk (.rsqF32 (mk w) (bf w 16 7) (bf w 9 7)) else .reject 2
    | 2 => if zf w 23 7 then chk (.exp2F32 (mk w) (bf w 16 7) (bf w 9 7)) else .reject 2
    | 3 => if zf w 23 7 then chk (.log2F32 (mk w) (bf w 16 7) (bf w 9 7)) else .reject 2
    | _ => .reject 1
  | 37 => match w / 1073741824 % 4 with
    | 0 => chk (.fdivF32 (mk w) (bf w 23 7) (bf w 16 7) (bf w 9 7))
    | 1 => if zf w 23 7 then chk (.sqrtF32 (mk w) (bf w 16 7) (bf w 9 7)) else .reject 2
    | 2 => if zf w 23 7 then chk (.frndF32 (mk w) (bf w 16 7) (bf w 9 7)) else .reject 2
    | 3 => if zf w 23 7 then chk (.fclsF32 (mk w) (bf w 16 7) (bf w 9 7)) else .reject 2
    | _ => .reject 1
  | 38 => chk (.cvt (mk w) (bf w 31 1) (bf w 27 4) (bf w 23 4) (bf w 16 7) (bf w 9 7))
  | 39 => chk (.cvtz (mk w) (bf w 31 1) (bf w 27 4) (bf w 23 4) (bf w 16 7) (bf w 9 7))
  | 40 => match w / 1073741824 % 4 with
    | 0 => chk (.qntFp4b8 (mk w) (bf w 23 7) (bf w 16 7) (bf w 9 7))
    | 1 => if zf w 23 7 then chk (.qntMxfp4 (mk w) (bf w 16 7) (bf w 9 7)) else .reject 2
    | 2 => chk (.dqntFp4b8 (mk w) (bf w 23 7) (bf w 16 7) (bf w 9 7))
    | _ => .reject 1
  | 48 => match w / 1073741824 % 4 with
    | 0 => chk (.lxchPick (mk w) (bf w 23 7) (bf w 16 7) (bf w 9 7))
    | 1 => chk (.lxchRotr (mk w) (bf w 23 7) (bf w 16 7) (bf w 9 7))
    | 2 => chk (.lxchRotl (mk w) (bf w 23 7) (bf w 16 7) (bf w 9 7))
    | 3 => chk (.lxchRev (mk w) (bf w 23 7) (bf w 16 7) (bf w 9 7))
    | _ => .reject 1
  | 49 => match w / 1073741824 % 4 with
    | 0 => chk (.slideUp1H (mk w) (bf w 23 7) (bf w 16 7) (bf w 9 7))
    | 1 => chk (.slideDn1H (mk w) (bf w 23 7) (bf w 16 7) (bf w 9 7))
    | 2 => chk (.slideUp1W (mk w) (bf w 23 7) (bf w 16 7) (bf w 9 7))
    | 3 => chk (.slideDn1W (mk w) (bf w 23 7) (bf w 16 7) (bf w 9 7))
    | _ => .reject 1
  | 50 => match w / 1073741824 % 4 with
    | 0 => if zf w 23 7 then chk (.lmaskSet (mk w) (bf w 16 7) (bf w 9 7)) else .reject 2
    | 1 => if zf w 23 7 then chk (.lmaskCnt (mk w) (bf w 16 7) (bf w 9 7)) else .reject 2
    | 2 => if zf w 23 7 then chk (.lmaskPfx (mk w) (bf w 16 7) (bf w 9 7)) else .reject 2
    | 3 => if zf w 23 7 then chk (.lmaskFirst (mk w) (bf w 16 7) (bf w 9 7)) else .reject 2
    | _ => .reject 1
  | 51 => match w / 1073741824 % 4 with
    | 0 => if zf w 23 7 then chk (.gredAddI32 (mk w) (bf w 16 7) (bf w 9 7)) else .reject 2
    | 1 => if zf w 23 7 then chk (.gredMaxI32 (mk w) (bf w 16 7) (bf w 9 7)) else .reject 2
    | 2 => if zf w 23 7 then chk (.gredMinI32 (mk w) (bf w 16 7) (bf w 9 7)) else .reject 2
    | 3 => if zf w 23 7 then chk (.gredAddF32 (mk w) (bf w 16 7) (bf w 9 7)) else .reject 2
    | _ => .reject 1
  | 56 => chk (.bra (mk w) (bf w 9 23))
  | 57 => chk (.brp (mk w) (bf w 13 19) (bf w 12 1) (bf w 9 3))
  | 58 => chk (.call (mk w) (bf w 9 23))
  | 59 => if zf w 9 23 then chk (.ret (mk w)) else .reject 2
  | 60 => if zf w 9 7 then chk (.jtab (mk w) (bf w 23 9) (bf w 16 7)) else .reject 2
  | 61 => chk (.loop (mk w) (bf w 14 18) (bf w 9 5))
  | 62 => if zf w 9 23 then chk (.exit (mk w)) else .reject 2
  | 63 => match w / 1073741824 % 4 with
    | 0 => if zf w 9 21 then chk (.nop32 (mk w)) else .reject 2
    | 1 => if zf w 9 21 then chk (.waitall (mk w)) else .reject 2
    | 2 => if zf w 9 21 then chk (.yield (mk w)) else .reject 2
    | _ => .reject 1
  | 64 => if zf w 14 18 then chk (.trap (mk w) (bf w 9 5)) else .reject 2
  | 65 => if zf w 9 23 then chk (.rft (mk w)) else .reject 2
  | 66 => if zf w 16 7 && zf w 29 3 then chk (.gets (mk w) (bf w 23 6) (bf w 9 7)) else .reject 2
  | 67 => if zf w 9 7 && zf w 29 3 then chk (.sets (mk w) (bf w 23 6) (bf w 16 7)) else .reject 2
  | 68 => if zf w 29 3 then chk (.mappg (mk w) (bf w 22 7) (bf w 16 6) (bf w 9 7)) else .reject 2
  | 69 => match w / 4194304 % 8 with
    | 0 => if zf w 9 7 && zf w 25 7 then chk (.tlbinvPage (mk w) (bf w 16 6)) else .reject 2
    | 1 => if zf w 9 13 && zf w 25 7 then chk (.tlbinvCtx (mk w)) else .reject 2
    | _ => .reject 2
  | 70 => if zf w 9 23 then chk (.halt (mk w)) else .reject 2
  | 72 => chk (.ld (mk w) (bf w 31 1) (bf w 30 1) (bf w 28 2) (bf w 25 3) (bf w 22 3) (bf w 16 6) (bf w 9 7))
  | 73 => if zf w 31 1 then chk (.st (mk w) (bf w 30 1) (bf w 28 2) (bf w 25 3) (bf w 22 3) (bf w 16 6) (bf w 9 7)) else .reject 2
  | 74 => if zf w 31 1 then chk (.lds (mk w) (bf w 30 1) (bf w 28 2) (bf w 25 3) (bf w 22 3) (bf w 16 6) (bf w 9 7)) else .reject 2
  | 75 => chk (.ldx (mk w) (bf w 31 1) (bf w 30 1) (bf w 28 2) (bf w 25 3) (bf w 22 3) (bf w 16 6) (bf w 9 7))
  | 76 => if zf w 9 7 && zf w 22 3 && zf w 30 2 then chk (.pref (mk w) (bf w 28 2) (bf w 25 3) (bf w 16 6)) else .reject 2
  | 77 => match w / 1073741824 % 4 with
    | 0 => chk (.ptrmk (mk w) (bf w 23 7) (bf w 16 7) (bf w 9 7))
    | 1 => if zf w 23 7 then chk (.ptrsp (mk w) (bf w 16 7) (bf w 9 7)) else .reject 2
    | 2 => chk (.ptrrk (mk w) (bf w 23 7) (bf w 16 7) (bf w 9 7))
    | 3 => chk (.ptroff (mk w) (bf w 23 7) (bf w 16 7) (bf w 9 7))
    | _ => .reject 1
  | 78 => if zf w 14 18 then chk (.fence (mk w) (bf w 12 2) (bf w 9 3)) else .reject 2
  | 80 => chk (.atomAddI32 (mk w) (bf w 29 3) (bf w 22 7) (bf w 16 6) (bf w 9 7))
  | 81 => chk (.atomMinI32 (mk w) (bf w 29 3) (bf w 22 7) (bf w 16 6) (bf w 9 7))
  | 82 => chk (.atomMaxI32 (mk w) (bf w 29 3) (bf w 22 7) (bf w 16 6) (bf w 9 7))
  | 83 => chk (.atomMinN32 (mk w) (bf w 29 3) (bf w 22 7) (bf w 16 6) (bf w 9 7))
  | 84 => chk (.atomMaxN32 (mk w) (bf w 29 3) (bf w 22 7) (bf w 16 6) (bf w 9 7))
  | 85 => chk (.atomAnd (mk w) (bf w 29 3) (bf w 22 7) (bf w 16 6) (bf w 9 7))
  | 86 => chk (.atomOr (mk w) (bf w 29 3) (bf w 22 7) (bf w 16 6) (bf w 9 7))
  | 87 => chk (.atomXor (mk w) (bf w 29 3) (bf w 22 7) (bf w 16 6) (bf w 9 7))
  | 88 => chk (.atomXchg (mk w) (bf w 29 3) (bf w 22 7) (bf w 16 6) (bf w 9 7))
  | 89 => chk (.atomCas (mk w) (bf w 29 3) (bf w 22 7) (bf w 16 6) (bf w 9 7))
  | 90 => chk (.atomAddI64 (mk w) (bf w 29 3) (bf w 22 7) (bf w 16 6) (bf w 9 7))
  | 91 => chk (.atomCasI64 (mk w) (bf w 29 3) (bf w 22 7) (bf w 16 6) (bf w 9 7))
  | 92 => chk (.atomFaddF32 (mk w) (bf w 29 3) (bf w 22 7) (bf w 16 6) (bf w 9 7))
  | 93 => match w / 512 % 128 with
    | 0 => chk (.redAddI32 (mk w) (bf w 29 3) (bf w 22 7) (bf w 16 6))
    | 1 => chk (.redAddI64 (mk w) (bf w 29 3) (bf w 22 7) (bf w 16 6))
    | 2 => chk (.redMinI32 (mk w) (bf w 29 3) (bf w 22 7) (bf w 16 6))
    | 3 => chk (.redMaxI32 (mk w) (bf w 29 3) (bf w 22 7) (bf w 16 6))
    | 4 => chk (.redMinN32 (mk w) (bf w 29 3) (bf w 22 7) (bf w 16 6))
    | 5 => chk (.redMaxN32 (mk w) (bf w 29 3) (bf w 22 7) (bf w 16 6))
    | 6 => chk (.redAnd (mk w) (bf w 29 3) (bf w 22 7) (bf w 16 6))
    | 7 => chk (.redOr (mk w) (bf w 29 3) (bf w 22 7) (bf w 16 6))
    | 8 => chk (.redXor (mk w) (bf w 29 3) (bf w 22 7) (bf w 16 6))
    | 9 => chk (.redFaddF32 (mk w) (bf w 29 3) (bf w 22 7) (bf w 16 6))
    | 10 => chk (.redFaddBf16x2 (mk w) (bf w 29 3) (bf w 22 7) (bf w 16 6))
    | 11 => chk (.redFaddFp8 (mk w) (bf w 29 3) (bf w 22 7) (bf w 16 6))
    | _ => .reject 2
  | 96 => match w / 1073741824 % 4 with
    | 0 => if zf w 16 7 then chk (.barArv (mk w) (bf w 23 7) (bf w 9 7)) else .reject 2
    | 1 => if zf w 16 7 then chk (.barArvdrop (mk w) (bf w 23 7) (bf w 9 7)) else .reject 2
    | 2 => if zf w 9 7 then chk (.barWait (mk w) (bf w 23 7) (bf w 16 7)) else .reject 2
    | 3 => if zf w 9 14 then chk (.barSync (mk w) (bf w 23 7)) else .reject 2
    | _ => .reject 1
  | 97 => if zf w 9 7 && zf w 30 2 then chk (.binit (mk w) (bf w 23 7) (bf w 16 7)) else .reject 2
  | 98 => if zf w 23 9 then chk (.attach (mk w) (bf w 16 7) (bf w 9 7)) else .reject 2
  | 99 => if zf w 9 23 then chk (.detach (mk w)) else .reject 2
  | 100 => if zf w 9 23 then chk (.trigger (mk w)) else .reject 2
  | 101 => match w / 1073741824 % 4 with
    | 0 => if zf w 22 8 then chk (.qpush (mk w) (bf w 16 6) (bf w 9 7)) else .reject 2
    | 1 => if zf w 22 8 then chk (.qpop (mk w) (bf w 16 6) (bf w 9 7)) else .reject 2
    | 2 => if zf w 9 7 && zf w 22 8 then chk (.qfree (mk w) (bf w 16 6)) else .reject 2
    | _ => .reject 1
  | 102 => if zf w 9 7 && zf w 22 10 then chk (.publish (mk w) (bf w 16 6)) else .reject 2
  | 104 => match w / 2147483648 % 2 with
    | 0 => if zf w 22 1 then chk (.bcopyG2l (mk w) (bf w 30 1) (bf w 23 7) (bf w 16 6) (bf w 9 7)) else .reject 2
    | 1 => if zf w 22 1 then chk (.bcopyL2g (mk w) (bf w 30 1) (bf w 23 7) (bf w 16 6) (bf w 9 7)) else .reject 2
    | _ => .reject 2
  | 105 => if zf w 29 3 then chk (.lcopy (mk w) (bf w 22 7) (bf w 16 6) (bf w 9 7)) else .reject 2
  | 106 => match w / 1073741824 % 4 with
    | 0 => if zf w 12 18 then chk (.cseal (mk w) (bf w 9 3)) else .reject 2
    | 1 => if zf w 12 18 then chk (.cwait (mk w) (bf w 9 3)) else .reject 2
    | _ => .reject 1
  | 107 => match w / 1073741824 % 4 with
    | 0 => if zf w 9 7 && zf w 22 2 then chk (.tsetup (mk w) (bf w 24 6) (bf w 16 6)) else .reject 2
    | 1 => if zf w 9 15 then chk (.tfree (mk w) (bf w 24 6)) else .reject 2
    | 2 => if zf w 16 8 then chk (.tstate (mk w) (bf w 24 6) (bf w 9 7)) else .reject 2
    | 3 => if zf w 9 15 then chk (.tdrain (mk w) (bf w 24 6)) else .reject 2
    | _ => .reject 1
  | 108 => if zf w 9 7 && zf w 30 2 then chk (.fork (mk w) (bf w 23 7) (bf w 16 7)) else .reject 2
  | 109 => match w / 1073741824 % 4 with
    | 0 => if zf w 16 14 then chk (.rdv (mk w) (bf w 9 7)) else .reject 2
    | 1 => if zf w 9 21 then chk (.endseq (mk w)) else .reject 2
    | _ => .reject 1
  | 110 => chk (.coll (mk w) (bf w 28 4) (bf w 22 6) (bf w 16 6) (bf w 9 7))
  | 111 => if zf w 22 6 then chk (.dpost (mk w) (bf w 28 4) (bf w 16 6) (bf w 9 7)) else .reject 2
  | 120 => if zf w 28 4 then chk (.mma (mk w) (bf w 27 1) (bf w 26 1) (bf w 22 4) (bf w 19 3) (bf w 13 6) (bf w 9 4)) else .reject 2
  | 121 => if zf w 9 7 && zf w 25 7 then chk (.mldb (mk w) (bf w 22 3) (bf w 16 6)) else .reject 2
  | 122 => match w / 1073741824 % 4 with
    | 0 => if zf w 13 3 && zf w 23 2 then chk (.acc2t (mk w) (bf w 26 4) (bf w 25 1) (bf w 16 7) (bf w 9 4)) else .reject 2
    | 1 => if zf w 13 3 && zf w 23 3 then chk (.t2acc (mk w) (bf w 26 4) (bf w 16 7) (bf w 9 4)) else .reject 2
    | 2 => if zf w 13 3 then chk (.acc2v (mk w) (bf w 26 4) (bf w 25 1) (bf w 23 2) (bf w 16 7) (bf w 9 4)) else .reject 2
    | 3 => if zf w 13 3 && zf w 25 1 then chk (.v2acc (mk w) (bf w 26 4) (bf w 23 2) (bf w 16 7) (bf w 9 4)) else .reject 2
    | _ => .reject 1
  | 123 => match w / 1073741824 % 4 with
    | 0 => if zf w 13 17 then chk (.mzero (mk w) (bf w 9 4)) else .reject 2
    | 1 => if zf w 9 7 && zf w 22 8 then chk (.mperm (mk w) (bf w 16 6)) else .reject 2
    | 2 => if zf w 29 1 then (if zf w 9 7 && zf w 27 2 then chk (.mbandW (mk w) (bf w 23 4) (bf w 16 7)) else .reject 2) else (if zf w 9 7 && zf w 27 2 then chk (.mbandA (mk w) (bf w 23 4) (bf w 16 7)) else .reject 2)
    | _ => .reject 1
  | _ => .reject 1

/-- R67: bit 0 of the first parcel gives the length. -/
def isWide (p0 : Nat) : Bool := p0 % 2 == 1

/-- The instruction whose first two parcels are `p0` and `p1`; `p1` is not read by a 16-bit form. -/
def decode (p0 p1 : BitVec 16) : Decoded :=
  if isWide p0.toNat then decode32 (p0.toNat + p1.toNat * 65536) else decode16 p0.toNat

/-- The words of an encoded instruction and its length in parcels; the other agents' steps have none. -/
def encode : Instr → Option (Nat × Nat)
  | .mov_16 m b d => some (0 + m.toNat * 2 + b.toNat * 2048 + d.toNat * 64, 1)
  | .movi_16 m i d => some (4 + m.toNat * 2 + i.toNat * 2048 + d.toNat * 64, 1)
  | .addI32_16 m b d => some (8 + m.toNat * 2 + b.toNat * 2048 + d.toNat * 64, 1)
  | .addi_16 m i d => some (12 + m.toNat * 2 + i.toNat * 2048 + d.toNat * 64, 1)
  | .subI32_16 m b d => some (16 + m.toNat * 2 + b.toNat * 2048 + d.toNat * 64, 1)
  | .mulI32_16 m b d => some (20 + m.toNat * 2 + b.toNat * 2048 + d.toNat * 64, 1)
  | .and_16 m b d => some (24 + m.toNat * 2 + b.toNat * 2048 + d.toNat * 64, 1)
  | .or_16 m b d => some (28 + m.toNat * 2 + b.toNat * 2048 + d.toNat * 64, 1)
  | .xor_16 m b d => some (32 + m.toNat * 2 + b.toNat * 2048 + d.toNat * 64, 1)
  | .shl_16 m b d => some (36 + m.toNat * 2 + b.toNat * 2048 + d.toNat * 64, 1)
  | .shli_16 m i d => some (40 + m.toNat * 2 + i.toNat * 2048 + d.toNat * 64, 1)
  | .shri_16 m i d => some (44 + m.toNat * 2 + i.toNat * 2048 + d.toNat * 64, 1)
  | .sari_16 m i d => some (48 + m.toNat * 2 + i.toNat * 2048 + d.toNat * 64, 1)
  | .faddF32_16 m b d => some (52 + m.toNat * 2 + b.toNat * 2048 + d.toNat * 64, 1)
  | .fmulF32_16 m b d => some (56 + m.toNat * 2 + b.toNat * 2048 + d.toNat * 64, 1)
  | .fsubF32_16 m b d => some (60 + m.toNat * 2 + b.toNat * 2048 + d.toNat * 64, 1)
  | .nop => some (0, 1)
  | .nopMarker => some (2, 1)
  | .addI32 m b a d => some (1 + m.toNat * 2 + b.toNat * 8388608 + a.toNat * 65536 + d.toNat * 512, 2)
  | .subI32 m b a d => some (1073741825 + m.toNat * 2 + b.toNat * 8388608 + a.toNat * 65536 + d.toNat * 512, 2)
  | .addsI32 m b a d => some (2147483649 + m.toNat * 2 + b.toNat * 8388608 + a.toNat * 65536 + d.toNat * 512, 2)
  | .subsI32 m b a d => some (3221225473 + m.toNat * 2 + b.toNat * 8388608 + a.toNat * 65536 + d.toNat * 512, 2)
  | .mulI32 m b a d => some (5 + m.toNat * 2 + b.toNat * 8388608 + a.toNat * 65536 + d.toNat * 512, 2)
  | .mulhiI32 m b a d => some (1073741829 + m.toNat * 2 + b.toNat * 8388608 + a.toNat * 65536 + d.toNat * 512, 2)
  | .mulhiN32 m b a d => some (2147483653 + m.toNat * 2 + b.toNat * 8388608 + a.toNat * 65536 + d.toNat * 512, 2)
  | .mulwI32 m b a d => some (3221225477 + m.toNat * 2 + b.toNat * 8388608 + a.toNat * 65536 + d.toNat * 512, 2)
  | .madI32 m b a d => some (9 + m.toNat * 2 + b.toNat * 8388608 + a.toNat * 65536 + d.toNat * 512, 2)
  | .madwI32 m b a d => some (1073741833 + m.toNat * 2 + b.toNat * 8388608 + a.toNat * 65536 + d.toNat * 512, 2)
  | .madwN32 m b a d => some (2147483657 + m.toNat * 2 + b.toNat * 8388608 + a.toNat * 65536 + d.toNat * 512, 2)
  | .sadN32 m b a d => some (3221225481 + m.toNat * 2 + b.toNat * 8388608 + a.toNat * 65536 + d.toNat * 512, 2)
  | .minI32 m b a d => some (13 + m.toNat * 2 + b.toNat * 8388608 + a.toNat * 65536 + d.toNat * 512, 2)
  | .maxI32 m b a d => some (1073741837 + m.toNat * 2 + b.toNat * 8388608 + a.toNat * 65536 + d.toNat * 512, 2)
  | .minN32 m b a d => some (2147483661 + m.toNat * 2 + b.toNat * 8388608 + a.toNat * 65536 + d.toNat * 512, 2)
  | .maxN32 m b a d => some (3221225485 + m.toNat * 2 + b.toNat * 8388608 + a.toNat * 65536 + d.toNat * 512, 2)
  | .and m b a d => some (17 + m.toNat * 2 + b.toNat * 8388608 + a.toNat * 65536 + d.toNat * 512, 2)
  | .or m b a d => some (1073741841 + m.toNat * 2 + b.toNat * 8388608 + a.toNat * 65536 + d.toNat * 512, 2)
  | .xor m b a d => some (2147483665 + m.toNat * 2 + b.toNat * 8388608 + a.toNat * 65536 + d.toNat * 512, 2)
  | .andn m b a d => some (3221225489 + m.toNat * 2 + b.toNat * 8388608 + a.toNat * 65536 + d.toNat * 512, 2)
  | .shl m b a d => some (21 + m.toNat * 2 + b.toNat * 8388608 + a.toNat * 65536 + d.toNat * 512, 2)
  | .shr m b a d => some (1073741845 + m.toNat * 2 + b.toNat * 8388608 + a.toNat * 65536 + d.toNat * 512, 2)
  | .sar m b a d => some (2147483669 + m.toNat * 2 + b.toNat * 8388608 + a.toNat * 65536 + d.toNat * 512, 2)
  | .rol m b a d => some (3221225493 + m.toNat * 2 + b.toNat * 8388608 + a.toNat * 65536 + d.toNat * 512, 2)
  | .popc m a d => some (25 + m.toNat * 2 + a.toNat * 65536 + d.toNat * 512, 2)
  | .clz m a d => some (1073741849 + m.toNat * 2 + a.toNat * 65536 + d.toNat * 512, 2)
  | .brev m a d => some (2147483673 + m.toNat * 2 + a.toNat * 65536 + d.toNat * 512, 2)
  | .ffs m a d => some (3221225497 + m.toNat * 2 + a.toNat * 65536 + d.toNat * 512, 2)
  | .bfxN32 m b a d => some (29 + m.toNat * 2 + b.toNat * 8388608 + a.toNat * 65536 + d.toNat * 512, 2)
  | .bfxI32 m b a d => some (1073741853 + m.toNat * 2 + b.toNat * 8388608 + a.toNat * 65536 + d.toNat * 512, 2)
  | .bfi m b a d => some (2147483677 + m.toNat * 2 + b.toNat * 8388608 + a.toNat * 65536 + d.toNat * 512, 2)
  | .bysel m b a d => some (3221225501 + m.toNat * 2 + b.toNat * 8388608 + a.toNat * 65536 + d.toNat * 512, 2)
  | .absI32 m a d => some (33 + m.toNat * 2 + a.toNat * 65536 + d.toNat * 512, 2)
  | .negI32 m a d => some (1073741857 + m.toNat * 2 + a.toNat * 65536 + d.toNat * 512, 2)
  | .sext m b a d => some (2147483681 + m.toNat * 2 + b.toNat * 8388608 + a.toNat * 65536 + d.toNat * 512, 2)
  | .zext m b a d => some (3221225505 + m.toNat * 2 + b.toNat * 8388608 + a.toNat * 65536 + d.toNat * 512, 2)
  | .addI64 m b a d => some (37 + m.toNat * 2 + b.toNat * 8388608 + a.toNat * 65536 + d.toNat * 512, 2)
  | .subI64 m b a d => some (1073741861 + m.toNat * 2 + b.toNat * 8388608 + a.toNat * 65536 + d.toNat * 512, 2)
  | .shlI64 m b a d => some (2147483685 + m.toNat * 2 + b.toNat * 8388608 + a.toNat * 65536 + d.toNat * 512, 2)
  | .shrN64 m b a d => some (3221225509 + m.toNat * 2 + b.toNat * 8388608 + a.toNat * 65536 + d.toNat * 512, 2)
  | .shrrI32 m b a d => some (41 + m.toNat * 2 + b.toNat * 8388608 + a.toNat * 65536 + d.toNat * 512, 2)
  | .shrrnI16 m b a d => some (1073741865 + m.toNat * 2 + b.toNat * 8388608 + a.toNat * 65536 + d.toNat * 512, 2)
  | .satnI16 m a d => some (2147483689 + m.toNat * 2 + a.toNat * 65536 + d.toNat * 512, 2)
  | .satnI8 m a d => some (3221225513 + m.toNat * 2 + a.toNat * 65536 + d.toNat * 512, 2)
  | .paddI16x2 m b a d => some (45 + m.toNat * 2 + b.toNat * 8388608 + a.toNat * 65536 + d.toNat * 512, 2)
  | .psubI16x2 m b a d => some (1073741869 + m.toNat * 2 + b.toNat * 8388608 + a.toNat * 65536 + d.toNat * 512, 2)
  | .pmulI16x2 m b a d => some (2147483693 + m.toNat * 2 + b.toNat * 8388608 + a.toNat * 65536 + d.toNat * 512, 2)
  | .pmaxI16x2 m b a d => some (3221225517 + m.toNat * 2 + b.toNat * 8388608 + a.toNat * 65536 + d.toNat * 512, 2)
  | .pmad2I16 m b a d => some (49 + m.toNat * 2 + b.toNat * 8388608 + a.toNat * 65536 + d.toNat * 512, 2)
  | .pmad2xI16 m b a d => some (1073741873 + m.toNat * 2 + b.toNat * 8388608 + a.toNat * 65536 + d.toNat * 512, 2)
  | .pmad4I8 m b a d => some (2147483697 + m.toNat * 2 + b.toNat * 8388608 + a.toNat * 65536 + d.toNat * 512, 2)
  | .pmad2N16 m b a d => some (3221225521 + m.toNat * 2 + b.toNat * 8388608 + a.toNat * 65536 + d.toNat * 512, 2)
  | .pack16 m b a d => some (53 + m.toNat * 2 + b.toNat * 8388608 + a.toNat * 65536 + d.toNat * 512, 2)
  | .unpkloI16 m a d => some (1073741877 + m.toNat * 2 + a.toNat * 65536 + d.toNat * 512, 2)
  | .unpkhiI16 m a d => some (2147483701 + m.toNat * 2 + a.toNat * 65536 + d.toNat * 512, 2)
  | .pshrrI16x2 m b a d => some (3221225525 + m.toNat * 2 + b.toNat * 8388608 + a.toNat * 65536 + d.toNat * 512, 2)
  | .selP0P3 m n b a d => some (65 + m.toNat * 2 + n.toNat * 1073741824 + b.toNat * 8388608 + a.toNat * 65536 + d.toNat * 512, 2)
  | .selP4P7 m n b a d => some (69 + m.toNat * 2 + n.toNat * 1073741824 + b.toNat * 8388608 + a.toNat * 65536 + d.toNat * 512, 2)
  | .icmpI32 m c b a k p => some (73 + m.toNat * 2 + c.toNat * 1073741824 + b.toNat * 8388608 + a.toNat * 65536 + k.toNat * 4096 + p.toNat * 512, 2)
  | .icmpN32 m c b a k p => some (77 + m.toNat * 2 + c.toNat * 1073741824 + b.toNat * 8388608 + a.toNat * 65536 + k.toNat * 4096 + p.toNat * 512, 2)
  | .fcmpF32 m c b a k p => some (81 + m.toNat * 2 + c.toNat * 1073741824 + b.toNat * 8388608 + a.toNat * 65536 + k.toNat * 4096 + p.toNat * 512, 2)
  | .icmpiI32 m c i a k p => some (85 + m.toNat * 2 + c.toNat * 1073741824 + i.toNat * 8388608 + a.toNat * 65536 + k.toNat * 4096 + p.toNat * 512, 2)
  | .plog m o b a d => some (89 + m.toNat * 2 + o.toNat * 262144 + b.toNat * 32768 + a.toNat * 4096 + d.toNat * 512, 2)
  | .movi m i d => some (97 + m.toNat * 2 + i.toNat * 65536 + d.toNat * 512, 2)
  | .movhi m i d => some (101 + m.toNat * 2 + i.toNat * 65536 + d.toNat * 512, 2)
  | .addi m i a d => some (105 + m.toNat * 2 + i.toNat * 8388608 + a.toNat * 65536 + d.toNat * 512, 2)
  | .andi m i a d => some (109 + m.toNat * 2 + i.toNat * 8388608 + a.toNat * 65536 + d.toNat * 512, 2)
  | .ori m i a d => some (113 + m.toNat * 2 + i.toNat * 8388608 + a.toNat * 65536 + d.toNat * 512, 2)
  | .xori m i a d => some (117 + m.toNat * 2 + i.toNat * 8388608 + a.toNat * 65536 + d.toNat * 512, 2)
  | .shli m n a d => some (121 + m.toNat * 2 + n.toNat * 8388608 + a.toNat * 65536 + d.toNat * 512, 2)
  | .shri m n a d => some (268435577 + m.toNat * 2 + n.toNat * 8388608 + a.toNat * 65536 + d.toNat * 512, 2)
  | .sari m n a d => some (536871033 + m.toNat * 2 + n.toNat * 8388608 + a.toNat * 65536 + d.toNat * 512, 2)
  | .roli m n a d => some (805306489 + m.toNat * 2 + n.toNat * 8388608 + a.toNat * 65536 + d.toNat * 512, 2)
  | .muli m i a d => some (125 + m.toNat * 2 + i.toNat * 8388608 + a.toNat * 65536 + d.toNat * 512, 2)
  | .faddF32 m b a d => some (129 + m.toNat * 2 + b.toNat * 8388608 + a.toNat * 65536 + d.toNat * 512, 2)
  | .fsubF32 m b a d => some (1073741953 + m.toNat * 2 + b.toNat * 8388608 + a.toNat * 65536 + d.toNat * 512, 2)
  | .fmulF32 m b a d => some (2147483777 + m.toNat * 2 + b.toNat * 8388608 + a.toNat * 65536 + d.toNat * 512, 2)
  | .ffmaF32 m b a d => some (3221225601 + m.toNat * 2 + b.toNat * 8388608 + a.toNat * 65536 + d.toNat * 512, 2)
  | .fminF32 m b a d => some (133 + m.toNat * 2 + b.toNat * 8388608 + a.toNat * 65536 + d.toNat * 512, 2)
  | .fmaxF32 m b a d => some (1073741957 + m.toNat * 2 + b.toNat * 8388608 + a.toNat * 65536 + d.toNat * 512, 2)
  | .fabsF32 m a d => some (2147483781 + m.toNat * 2 + a.toNat * 65536 + d.toNat * 512, 2)
  | .fnegF32 m a d => some (3221225605 + m.toNat * 2 + a.toNat * 65536 + d.toNat * 512, 2)
  | .haddBf16x2 m b a d => some (137 + m.toNat * 2 + b.toNat * 8388608 + a.toNat * 65536 + d.toNat * 512, 2)
  | .hmulBf16x2 m b a d => some (1073741961 + m.toNat * 2 + b.toNat * 8388608 + a.toNat * 65536 + d.toNat * 512, 2)
  | .hfmaBf16x2 m b a d => some (2147483785 + m.toNat * 2 + b.toNat * 8388608 + a.toNat * 65536 + d.toNat * 512, 2)
  | .hmaxBf16x2 m b a d => some (3221225609 + m.toNat * 2 + b.toNat * 8388608 + a.toNat * 65536 + d.toNat * 512, 2)
  | .haddF16x2 m b a d => some (141 + m.toNat * 2 + b.toNat * 8388608 + a.toNat * 65536 + d.toNat * 512, 2)
  | .hmulF16x2 m b a d => some (1073741965 + m.toNat * 2 + b.toNat * 8388608 + a.toNat * 65536 + d.toNat * 512, 2)
  | .hfmaF16x2 m b a d => some (2147483789 + m.toNat * 2 + b.toNat * 8388608 + a.toNat * 65536 + d.toNat * 512, 2)
  | .hmaxF16x2 m b a d => some (3221225613 + m.toNat * 2 + b.toNat * 8388608 + a.toNat * 65536 + d.toNat * 512, 2)
  | .rcpF32 m a d => some (145 + m.toNat * 2 + a.toNat * 65536 + d.toNat * 512, 2)
  | .rsqF32 m a d => some (1073741969 + m.toNat * 2 + a.toNat * 65536 + d.toNat * 512, 2)
  | .exp2F32 m a d => some (2147483793 + m.toNat * 2 + a.toNat * 65536 + d.toNat * 512, 2)
  | .log2F32 m a d => some (3221225617 + m.toNat * 2 + a.toNat * 65536 + d.toNat * 512, 2)
  | .fdivF32 m b a d => some (149 + m.toNat * 2 + b.toNat * 8388608 + a.toNat * 65536 + d.toNat * 512, 2)
  | .sqrtF32 m a d => some (1073741973 + m.toNat * 2 + a.toNat * 65536 + d.toNat * 512, 2)
  | .frndF32 m a d => some (2147483797 + m.toNat * 2 + a.toNat * 65536 + d.toNat * 512, 2)
  | .fclsF32 m a d => some (3221225621 + m.toNat * 2 + a.toNat * 65536 + d.toNat * 512, 2)
  | .cvt m u r t a d => some (153 + m.toNat * 2 + u.toNat * 2147483648 + r.toNat * 134217728 + t.toNat * 8388608 + a.toNat * 65536 + d.toNat * 512, 2)
  | .cvtz m u r t a d => some (157 + m.toNat * 2 + u.toNat * 2147483648 + r.toNat * 134217728 + t.toNat * 8388608 + a.toNat * 65536 + d.toNat * 512, 2)
  | .qntFp4b8 m b a d => some (161 + m.toNat * 2 + b.toNat * 8388608 + a.toNat * 65536 + d.toNat * 512, 2)
  | .qntMxfp4 m a d => some (1073741985 + m.toNat * 2 + a.toNat * 65536 + d.toNat * 512, 2)
  | .dqntFp4b8 m b a d => some (2147483809 + m.toNat * 2 + b.toNat * 8388608 + a.toNat * 65536 + d.toNat * 512, 2)
  | .lxchPick m b a d => some (193 + m.toNat * 2 + b.toNat * 8388608 + a.toNat * 65536 + d.toNat * 512, 2)
  | .lxchRotr m b a d => some (1073742017 + m.toNat * 2 + b.toNat * 8388608 + a.toNat * 65536 + d.toNat * 512, 2)
  | .lxchRotl m b a d => some (2147483841 + m.toNat * 2 + b.toNat * 8388608 + a.toNat * 65536 + d.toNat * 512, 2)
  | .lxchRev m b a d => some (3221225665 + m.toNat * 2 + b.toNat * 8388608 + a.toNat * 65536 + d.toNat * 512, 2)
  | .slideUp1H m b a d => some (197 + m.toNat * 2 + b.toNat * 8388608 + a.toNat * 65536 + d.toNat * 512, 2)
  | .slideDn1H m b a d => some (1073742021 + m.toNat * 2 + b.toNat * 8388608 + a.toNat * 65536 + d.toNat * 512, 2)
  | .slideUp1W m b a d => some (2147483845 + m.toNat * 2 + b.toNat * 8388608 + a.toNat * 65536 + d.toNat * 512, 2)
  | .slideDn1W m b a d => some (3221225669 + m.toNat * 2 + b.toNat * 8388608 + a.toNat * 65536 + d.toNat * 512, 2)
  | .lmaskSet m a d => some (201 + m.toNat * 2 + a.toNat * 65536 + d.toNat * 512, 2)
  | .lmaskCnt m a d => some (1073742025 + m.toNat * 2 + a.toNat * 65536 + d.toNat * 512, 2)
  | .lmaskPfx m a d => some (2147483849 + m.toNat * 2 + a.toNat * 65536 + d.toNat * 512, 2)
  | .lmaskFirst m a d => some (3221225673 + m.toNat * 2 + a.toNat * 65536 + d.toNat * 512, 2)
  | .gredAddI32 m a d => some (205 + m.toNat * 2 + a.toNat * 65536 + d.toNat * 512, 2)
  | .gredMaxI32 m a d => some (1073742029 + m.toNat * 2 + a.toNat * 65536 + d.toNat * 512, 2)
  | .gredMinI32 m a d => some (2147483853 + m.toNat * 2 + a.toNat * 65536 + d.toNat * 512, 2)
  | .gredAddF32 m a d => some (3221225677 + m.toNat * 2 + a.toNat * 65536 + d.toNat * 512, 2)
  | .bra m o => some (225 + m.toNat * 2 + o.toNat * 512, 2)
  | .brp m o n p => some (229 + m.toNat * 2 + o.toNat * 8192 + n.toNat * 4096 + p.toNat * 512, 2)
  | .call m o => some (233 + m.toNat * 2 + o.toNat * 512, 2)
  | .ret m => some (237 + m.toNat * 2, 2)
  | .jtab m n a => some (241 + m.toNat * 2 + n.toNat * 8388608 + a.toNat * 65536, 2)
  | .loop m o c => some (245 + m.toNat * 2 + o.toNat * 16384 + c.toNat * 512, 2)
  | .exit m => some (249 + m.toNat * 2, 2)
  | .nop32 m => some (253 + m.toNat * 2, 2)
  | .waitall m => some (1073742077 + m.toNat * 2, 2)
  | .yield m => some (2147483901 + m.toNat * 2, 2)
  | .trap m i => some (257 + m.toNat * 2 + i.toNat * 512, 2)
  | .rft m => some (261 + m.toNat * 2, 2)
  | .gets m e d => some (265 + m.toNat * 2 + e.toNat * 8388608 + d.toNat * 512, 2)
  | .sets m e a => some (269 + m.toNat * 2 + e.toNat * 8388608 + a.toNat * 65536, 2)
  | .mappg m b a d => some (273 + m.toNat * 2 + b.toNat * 4194304 + a.toNat * 65536 + d.toNat * 512, 2)
  | .tlbinvPage m a => some (277 + m.toNat * 2 + a.toNat * 65536, 2)
  | .tlbinvCtx m => some (4194581 + m.toNat * 2, 2)
  | .halt m => some (281 + m.toNat * 2, 2)
  | .ld m x o h c z a d => some (289 + m.toNat * 2 + x.toNat * 2147483648 + o.toNat * 1073741824 + h.toNat * 268435456 + c.toNat * 33554432 + z.toNat * 4194304 + a.toNat * 65536 + d.toNat * 512, 2)
  | .st m o h c z a v => some (293 + m.toNat * 2 + o.toNat * 1073741824 + h.toNat * 268435456 + c.toNat * 33554432 + z.toNat * 4194304 + a.toNat * 65536 + v.toNat * 512, 2)
  | .lds m o h c z a d => some (297 + m.toNat * 2 + o.toNat * 1073741824 + h.toNat * 268435456 + c.toNat * 33554432 + z.toNat * 4194304 + a.toNat * 65536 + d.toNat * 512, 2)
  | .ldx m x o h c z a d => some (301 + m.toNat * 2 + x.toNat * 2147483648 + o.toNat * 1073741824 + h.toNat * 268435456 + c.toNat * 33554432 + z.toNat * 4194304 + a.toNat * 65536 + d.toNat * 512, 2)
  | .pref m h c a => some (305 + m.toNat * 2 + h.toNat * 268435456 + c.toNat * 33554432 + a.toNat * 65536, 2)
  | .ptrmk m b a d => some (309 + m.toNat * 2 + b.toNat * 8388608 + a.toNat * 65536 + d.toNat * 512, 2)
  | .ptrsp m a d => some (1073742133 + m.toNat * 2 + a.toNat * 65536 + d.toNat * 512, 2)
  | .ptrrk m b a d => some (2147483957 + m.toNat * 2 + b.toNat * 8388608 + a.toNat * 65536 + d.toNat * 512, 2)
  | .ptroff m b a d => some (3221225781 + m.toNat * 2 + b.toNat * 8388608 + a.toNat * 65536 + d.toNat * 512, 2)
  | .fence m k c => some (313 + m.toNat * 2 + k.toNat * 4096 + c.toNat * 512, 2)
  | .atomAddI32 m c v a d => some (321 + m.toNat * 2 + c.toNat * 536870912 + v.toNat * 4194304 + a.toNat * 65536 + d.toNat * 512, 2)
  | .atomMinI32 m c v a d => some (325 + m.toNat * 2 + c.toNat * 536870912 + v.toNat * 4194304 + a.toNat * 65536 + d.toNat * 512, 2)
  | .atomMaxI32 m c v a d => some (329 + m.toNat * 2 + c.toNat * 536870912 + v.toNat * 4194304 + a.toNat * 65536 + d.toNat * 512, 2)
  | .atomMinN32 m c v a d => some (333 + m.toNat * 2 + c.toNat * 536870912 + v.toNat * 4194304 + a.toNat * 65536 + d.toNat * 512, 2)
  | .atomMaxN32 m c v a d => some (337 + m.toNat * 2 + c.toNat * 536870912 + v.toNat * 4194304 + a.toNat * 65536 + d.toNat * 512, 2)
  | .atomAnd m c v a d => some (341 + m.toNat * 2 + c.toNat * 536870912 + v.toNat * 4194304 + a.toNat * 65536 + d.toNat * 512, 2)
  | .atomOr m c v a d => some (345 + m.toNat * 2 + c.toNat * 536870912 + v.toNat * 4194304 + a.toNat * 65536 + d.toNat * 512, 2)
  | .atomXor m c v a d => some (349 + m.toNat * 2 + c.toNat * 536870912 + v.toNat * 4194304 + a.toNat * 65536 + d.toNat * 512, 2)
  | .atomXchg m c v a d => some (353 + m.toNat * 2 + c.toNat * 536870912 + v.toNat * 4194304 + a.toNat * 65536 + d.toNat * 512, 2)
  | .atomCas m c v a d => some (357 + m.toNat * 2 + c.toNat * 536870912 + v.toNat * 4194304 + a.toNat * 65536 + d.toNat * 512, 2)
  | .atomAddI64 m c v a d => some (361 + m.toNat * 2 + c.toNat * 536870912 + v.toNat * 4194304 + a.toNat * 65536 + d.toNat * 512, 2)
  | .atomCasI64 m c v a d => some (365 + m.toNat * 2 + c.toNat * 536870912 + v.toNat * 4194304 + a.toNat * 65536 + d.toNat * 512, 2)
  | .atomFaddF32 m c v a d => some (369 + m.toNat * 2 + c.toNat * 536870912 + v.toNat * 4194304 + a.toNat * 65536 + d.toNat * 512, 2)
  | .redAddI32 m c v a => some (373 + m.toNat * 2 + c.toNat * 536870912 + v.toNat * 4194304 + a.toNat * 65536, 2)
  | .redAddI64 m c v a => some (885 + m.toNat * 2 + c.toNat * 536870912 + v.toNat * 4194304 + a.toNat * 65536, 2)
  | .redMinI32 m c v a => some (1397 + m.toNat * 2 + c.toNat * 536870912 + v.toNat * 4194304 + a.toNat * 65536, 2)
  | .redMaxI32 m c v a => some (1909 + m.toNat * 2 + c.toNat * 536870912 + v.toNat * 4194304 + a.toNat * 65536, 2)
  | .redMinN32 m c v a => some (2421 + m.toNat * 2 + c.toNat * 536870912 + v.toNat * 4194304 + a.toNat * 65536, 2)
  | .redMaxN32 m c v a => some (2933 + m.toNat * 2 + c.toNat * 536870912 + v.toNat * 4194304 + a.toNat * 65536, 2)
  | .redAnd m c v a => some (3445 + m.toNat * 2 + c.toNat * 536870912 + v.toNat * 4194304 + a.toNat * 65536, 2)
  | .redOr m c v a => some (3957 + m.toNat * 2 + c.toNat * 536870912 + v.toNat * 4194304 + a.toNat * 65536, 2)
  | .redXor m c v a => some (4469 + m.toNat * 2 + c.toNat * 536870912 + v.toNat * 4194304 + a.toNat * 65536, 2)
  | .redFaddF32 m c v a => some (4981 + m.toNat * 2 + c.toNat * 536870912 + v.toNat * 4194304 + a.toNat * 65536, 2)
  | .redFaddBf16x2 m c v a => some (5493 + m.toNat * 2 + c.toNat * 536870912 + v.toNat * 4194304 + a.toNat * 65536, 2)
  | .redFaddFp8 m c v a => some (6005 + m.toNat * 2 + c.toNat * 536870912 + v.toNat * 4194304 + a.toNat * 65536, 2)
  | .barArv m i d => some (385 + m.toNat * 2 + i.toNat * 8388608 + d.toNat * 512, 2)
  | .barArvdrop m i d => some (1073742209 + m.toNat * 2 + i.toNat * 8388608 + d.toNat * 512, 2)
  | .barWait m i a => some (2147484033 + m.toNat * 2 + i.toNat * 8388608 + a.toNat * 65536, 2)
  | .barSync m i => some (3221225857 + m.toNat * 2 + i.toNat * 8388608, 2)
  | .binit m i a => some (389 + m.toNat * 2 + i.toNat * 8388608 + a.toNat * 65536, 2)
  | .attach m a d => some (393 + m.toNat * 2 + a.toNat * 65536 + d.toNat * 512, 2)
  | .detach m => some (397 + m.toNat * 2, 2)
  | .trigger m => some (401 + m.toNat * 2, 2)
  | .qpush m a d => some (405 + m.toNat * 2 + a.toNat * 65536 + d.toNat * 512, 2)
  | .qpop m a d => some (1073742229 + m.toNat * 2 + a.toNat * 65536 + d.toNat * 512, 2)
  | .qfree m a => some (2147484053 + m.toNat * 2 + a.toNat * 65536, 2)
  | .publish m a => some (409 + m.toNat * 2 + a.toNat * 65536, 2)
  | .bcopyG2l m t c a d => some (417 + m.toNat * 2 + t.toNat * 1073741824 + c.toNat * 8388608 + a.toNat * 65536 + d.toNat * 512, 2)
  | .bcopyL2g m t c a d => some (2147484065 + m.toNat * 2 + t.toNat * 1073741824 + c.toNat * 8388608 + a.toNat * 65536 + d.toNat * 512, 2)
  | .lcopy m i a v => some (421 + m.toNat * 2 + i.toNat * 4194304 + a.toNat * 65536 + v.toNat * 512, 2)
  | .cseal m n => some (425 + m.toNat * 2 + n.toNat * 512, 2)
  | .cwait m n => some (1073742249 + m.toNat * 2 + n.toNat * 512, 2)
  | .tsetup m t a => some (429 + m.toNat * 2 + t.toNat * 16777216 + a.toNat * 65536, 2)
  | .tfree m t => some (1073742253 + m.toNat * 2 + t.toNat * 16777216, 2)
  | .tstate m t d => some (2147484077 + m.toNat * 2 + t.toNat * 16777216 + d.toNat * 512, 2)
  | .tdrain m t => some (3221225901 + m.toNat * 2 + t.toNat * 16777216, 2)
  | .fork m b a => some (433 + m.toNat * 2 + b.toNat * 8388608 + a.toNat * 65536, 2)
  | .rdv m d => some (437 + m.toNat * 2 + d.toNat * 512, 2)
  | .endseq m => some (1073742261 + m.toNat * 2, 2)
  | .coll m i t a d => some (441 + m.toNat * 2 + i.toNat * 268435456 + t.toNat * 4194304 + a.toNat * 65536 + d.toNat * 512, 2)
  | .dpost m i a d => some (445 + m.toNat * 2 + i.toNat * 268435456 + a.toNat * 65536 + d.toNat * 512, 2)
  | .mma m p z f w t c => some (481 + m.toNat * 2 + p.toNat * 134217728 + z.toNat * 67108864 + f.toNat * 4194304 + w.toNat * 524288 + t.toNat * 8192 + c.toNat * 512, 2)
  | .mldb m w a => some (485 + m.toNat * 2 + w.toNat * 4194304 + a.toNat * 65536, 2)
  | .acc2t m f u x c => some (489 + m.toNat * 2 + f.toNat * 67108864 + u.toNat * 33554432 + x.toNat * 65536 + c.toNat * 512, 2)
  | .t2acc m f x c => some (1073742313 + m.toNat * 2 + f.toNat * 67108864 + x.toNat * 65536 + c.toNat * 512, 2)
  | .acc2v m f u q x c => some (2147484137 + m.toNat * 2 + f.toNat * 67108864 + u.toNat * 33554432 + q.toNat * 8388608 + x.toNat * 65536 + c.toNat * 512, 2)
  | .v2acc m f q x c => some (3221225961 + m.toNat * 2 + f.toNat * 67108864 + q.toNat * 8388608 + x.toNat * 65536 + c.toNat * 512, 2)
  | .mzero m c => some (493 + m.toNat * 2 + c.toNat * 512, 2)
  | .mperm m a => some (1073742317 + m.toNat * 2 + a.toNat * 65536, 2)
  | .mbandW m i a => some (2147484141 + m.toNat * 2 + i.toNat * 8388608 + a.toNat * 65536, 2)
  | .mbandA m i a => some (2684355053 + m.toNat * 2 + i.toNat * 8388608 + a.toNat * 65536, 2)
  | _ => none

/-- The first parcel of an encoded word. -/
def parcelLo (w : Nat) : BitVec 16 := BitVec.ofNat 16 w

/-- The second parcel of an encoded word. -/
def parcelHi (w : Nat) : BitVec 16 := BitVec.ofNat 16 (w / 65536)

/-- The instruction that the decoder reads from a word numbered as spec/opcode_table.json numbers its bits. -/
def decodeTableWord (_nbits w : Nat) : Option Instr :=
  match decode (parcelLo w) (parcelHi w) with
  | .instr i _ => some i
  | .reject _ => none

end Sys2Proof
end

