-- ==== Sys2Proof/Word.lean ====
section
/-! DEFINITION. The words of the machine (R5, R39): 8-, 16-, 32- and 64-bit values, and the 32-lane mask of a group. -/

namespace Sys2Proof

/-- A byte of memory. -/
abbrev Byte := BitVec 8
/-- A 16-bit instruction parcel (R67). -/
abbrev Parcel := BitVec 16
/-- A 32-bit register (R5). -/
abbrev Word := BitVec 32
/-- A 64-bit register pair, address or special register (R77). -/
abbrev Dword := BitVec 64
/-- One bit for each of a group's 32 lanes (R25). -/
abbrev Mask := BitVec 32
/-- A parcel index within the program store (R68). -/
abbrev Pc := BitVec 17

end Sys2Proof
end

