-- ==== Sys2Proof/Config.lean ====
section
/-! DEFINITION. What an implementation of the module fixes and the spec leaves open. The functions without a body are free values:
nothing can be proved of their values. R124 fixes only an error bound for `rcp`, `rsq`, `exp2` and `log2`; SHAKE256, Falcon-1024,
ML-KEM-1024 and AES-GCM are named by R444 to R451 and defined elsewhere. -/

namespace Sys2Proof.Config

/-- R124: the unit's raw answer; the meaning keeps it inside the bound of the rule. -/
opaque rcp : Word → Word
/-- R124: as `rcp`. -/
opaque rsq : Word → Word
/-- R124: as `rcp`. -/
opaque exp2 : Word → Word
/-- R124: as `rcp`. -/
opaque log2 : Word → Word

/-- R163, R245, R393: whether a copy that is aborted, or that meets a cause, has moved a byte; free in every case. -/
opaque moved : Nat → Bool

/-- R387, R388: the bytes that a context image takes in image backing, which the spec gives no layout. -/
opaque imageBytes : Nat → List Byte

/-- R409: a byte that ranks of other packages contribute to a collective. -/
opaque remoteByte : Nat → Byte

/-- R409: the bytes of a flit by which packages carry out a spanning collective, whose layout the spec does not give: what it is (0 a start
handshake, 1 a block's exponent, 2 a block's partial sums with their classes, 3 bytes of a result or of a contribution), context, communicator,
sequence, block and the numbers that it carries. -/
opaque spanFrame : (what ctx comm seq block : Nat) → List Int → List Byte
/-- R441: the package that a port leads to for the ranks from a first one on. -/
opaque packageOf : (port first : Nat) → Nat

/-- R448, R451: `n` bytes of SHAKE256 of a message. -/
opaque shake256 : (n : Nat) → List Byte → List Byte
/-- R451: the bytes of Datum's ROM. -/
opaque datumRom : List Byte
/-- R448: whether a Falcon-1024 signature of a message verifies under a key. -/
opaque falconVerify : (key msg sig : List Byte) → Bool
/-- R451: the signature of a message under the key of the identity seed; the counter stands for the randomness of the scheme. -/
opaque falconSign : (seed : BitVec 384) → (msg : List Byte) → (counter : Nat) → List Byte
/-- R447: the public half of the Falcon-1024 pair that Datum derives from the identity seed. -/
opaque falconPublic : (seed : BitVec 384) → List Byte
/-- R443: the AES-GCM-256 ciphertext and tag of a text under a key, an IV and additional data. -/
opaque gcmSeal : (key iv aad text : List Byte) → List Byte × List Byte
/-- R443: what a key exchange has come to, from the bytes that have gone to and fro: none while it runs, then the key of the peer's certificate, the
peer's signature and the shared secret of ML-KEM-1024. -/
opaque exchangeOf : (transcript : List Byte) → Option (List Byte × List Byte × List Byte)
/-- R443: what this side says next in a key exchange: its part of the ML-KEM exchange, its certificate and its signature; the counter stands for the
randomness of the scheme. -/
opaque exchangeFrame : (transcript cert signature : List Byte) → (counter : Nat) → List Byte
/-- R435: what a key-management message does to an IDE stream: the stream, and its key, or no byte where the key goes. -/
opaque ideAct : List Byte → Option (Nat × List Byte)
/-- R436: whether a UCIe module trains; the counter tells one training from another. -/
opaque ucieTrains : (counter module : Nat) → Bool

end Sys2Proof.Config
end

