-- ==== Sys2Proof/Machine/Float.lean ====
section
/-! DEFINITION. The number formats of R39 to R52 and their arithmetic (R40 to R66, R121 to R132). A finite value is held exactly, as
a sign, a natural significand and a power of two; every operation is exact and is rounded once at its end (R44, R45). -/

namespace Sys2Proof.Machine

/-- A value of a floating-point format, or an exact result before rounding: ±m × 2^e. -/
inductive FV where
  | nan
  | inf (neg : Bool)
  | fin (neg : Bool) (m : Nat) (e : Int)
deriving DecidableEq, Repr

/-- R41, R42: a floating-point format. `maxMag` is the encoding of the largest finite magnitude, `infMag` that of infinity. -/
structure Fmt where
  bits : Nat
  mant : Nat
  bias : Nat
  maxMag : Nat
  infMag : Option Nat
  nanMag : Option Nat
deriving DecidableEq, Repr

def f32 : Fmt := ⟨32, 23, 127, 0x7F7FFFFF, some 0x7F800000, some 0x7FC00000⟩
def bf16 : Fmt := ⟨16, 7, 127, 0x7F7F, some 0x7F80, some 0x7FC0⟩
def f16 : Fmt := ⟨16, 10, 15, 0x7BFF, some 0x7C00, some 0x7E00⟩
def fp8e4m3 : Fmt := ⟨8, 3, 7, 0x7E, none, some 0x7F⟩
def fp8e5m2 : Fmt := ⟨8, 2, 15, 0x7B, some 0x7C, some 0x7F⟩
def fp4e2m1 : Fmt := ⟨4, 1, 1, 7, none, none⟩

/-- R41: the floating-point format of a format code. -/
def floatFmt (c : Nat) : Option Fmt :=
  if c = 6 then some f32 else if c = 7 then some bf16 else if c = 8 then some f16
  else if c = 9 then some fp8e4m3 else if c = 10 then some fp8e5m2 else if c = 11 then some fp4e2m1 else none

/-- R39: width and signedness of an integer format code. -/
def intFmt (c : Nat) : Option (Nat × Bool) :=
  if c = 0 then some (32, true) else if c = 1 then some (32, false) else if c = 2 then some (16, true)
  else if c = 3 then some (16, false) else if c = 4 then some (8, true) else if c = 5 then some (8, false)
  else if c = 12 then some (64, true) else none

/-- R39, R41: bits of an element of a format code. -/
def fmtBits (c : Nat) : Nat :=
  match floatFmt c with
  | some F => F.bits
  | none => ((intFmt c).map Prod.fst).getD 0

/-- R41, R42: the value of an encoding. -/
def Fmt.decode (F : Fmt) (x : Nat) : FV :=
  let mag := x % 2 ^ (F.bits - 1)
  let neg := decide (x / 2 ^ (F.bits - 1) % 2 = 1)
  if mag ≤ F.maxMag then
    let e := mag / 2 ^ F.mant
    let m := mag % 2 ^ F.mant
    if e = 0 then .fin neg m (1 - F.bias - F.mant) else .fin neg (m + 2 ^ F.mant) ((e : Int) - F.bias - F.mant)
  else if F.infMag = some mag then .inf neg
  else .nan

/-- `n / 2^k` to the nearest, ties to even. -/
def rneShift (n k : Nat) : Nat :=
  if k = 0 then n
  else
    let q := n / 2 ^ k
    let r := n % 2 ^ k
    let h := 2 ^ (k - 1)
    if r > h then q + 1 else if r = h ∧ q % 2 = 1 then q + 1 else q

/-- Whether m × 2^e is at most m' × 2^e'. -/
def dyLe (m : Nat) (e : Int) (m' : Nat) (e' : Int) : Bool :=
  if e ≤ e' then decide (m ≤ m' * 2 ^ (e' - e).toNat) else decide (m * 2 ^ (e - e').toNat ≤ m')

/-- R44: the threshold of overflow, the largest finite value plus half a unit of its last place. -/
def Fmt.overflows (F : Fmt) (m : Nat) (e : Int) : Bool :=
  let sig := F.maxMag % 2 ^ F.mant + 2 ^ F.mant
  let q : Int := (F.maxMag / 2 ^ F.mant : Nat) - F.bias - F.mant
  dyLe (2 * sig + 1) (q - 1) m e

/-- R44: the encoding, without sign, of a magnitude below the threshold of overflow. -/
def Fmt.roundMag (F : Fmt) (m : Nat) (e : Int) : Nat :=
  if m = 0 then 0
  else
    let emin : Int := 1 - F.bias
    let E : Int := (m.log2 : Int) + e
    let q : Int := (if E < emin then emin else E) - F.mant
    let n := if q ≤ e then m * 2 ^ (e - q).toNat else rneShift m (q - e).toNat
    (q + F.mant - emin).toNat * 2 ^ F.mant + n

/-- The encoding with a sign. -/
def Fmt.sign (F : Fmt) (neg : Bool) (mag : Nat) : Nat := (if neg then 2 ^ (F.bits - 1) else 0) + mag

/-- R45: overflow or an infinity written in the format. -/
def Fmt.overflow (F : Fmt) (sat neg : Bool) : Nat :=
  match sat, F.infMag, F.nanMag with
  | false, some i, _ => F.sign neg i
  | false, none, some n => F.sign neg n
  | _, _, _ => F.sign neg F.maxMag

/-- R44, R45: `rne(x, F)`, as an encoding. -/
def Fmt.rne (F : Fmt) (sat : Bool) : FV → Nat
  | .nan => F.nanMag.getD 0
  | .inf neg => F.overflow sat neg
  | .fin neg m e => if F.overflows m e then F.overflow sat neg else F.sign neg (F.roundMag m e)

namespace FV

def ofInt (i : Int) : FV := .fin (decide (i < 0)) i.natAbs 0

def neg : FV → FV
  | .nan => .nan
  | .inf n => .inf (!n)
  | .fin n m e => .fin (!n) m e

/-- R121: the exact sum; an exact zero sum is −0 only for two −0. -/
def add : FV → FV → FV
  | .nan, _ => .nan
  | _, .nan => .nan
  | .inf a, .inf b => if a = b then .inf a else .nan
  | .inf a, .fin _ _ _ => .inf a
  | .fin _ _ _, .inf b => .inf b
  | .fin n m e, .fin n' m' e' =>
    let k := if e ≤ e' then e else e'
    let x : Int := (m * 2 ^ (e - k).toNat : Nat)
    let y : Int := (m' * 2 ^ (e' - k).toNat : Nat)
    let t := (if n then -x else x) + (if n' then -y else y)
    if t = 0 then .fin (if m = 0 ∧ m' = 0 then n && n' else false) 0 0
    else .fin (decide (t < 0)) t.natAbs k

/-- R121: the exact product. -/
def mul : FV → FV → FV
  | .nan, _ => .nan
  | _, .nan => .nan
  | .inf a, .inf b => .inf (a != b)
  | .inf a, .fin b m _ => if m = 0 then .nan else .inf (a != b)
  | .fin a m _, .inf b => if m = 0 then .nan else .inf (a != b)
  | .fin a m e, .fin b m' e' => .fin (a != b) (m * m') (e + e')

/-- R125: the quotient, to well over 32 bits, with a sticky lowest bit that makes `rne` of it the rounding of the exact quotient. -/
def div : FV → FV → FV
  | .nan, _ => .nan
  | _, .nan => .nan
  | .inf _, .inf _ => .nan
  | .inf a, .fin b _ _ => .inf (a != b)
  | .fin a _ _, .inf b => .fin (a != b) 0 0
  | .fin a m e, .fin b m' e' =>
    if m' = 0 then (if m = 0 then .nan else .inf (a != b))
    else
      let k := 40 + m'.log2
      let q := m * 2 ^ k / m'
      let r := m * 2 ^ k % m'
      .fin (a != b) (2 * q + (if r = 0 then 0 else 1)) (e - e' - k - 1)

/-- Strictly less, for values that are not NaN; zeros of either sign are equal. -/
def lt (x y : FV) : Bool :=
  match x, y with
  | .nan, _ => false
  | _, .nan => false
  | .inf a, .inf b => a && !b
  | .inf a, .fin _ _ _ => a
  | .fin _ _ _, .inf b => !b
  | .fin _ _ _, .fin _ _ _ =>
    match add x (neg y) with
    | .fin n m _ => n && decide (m ≠ 0)
    | _ => false

def isNan : FV → Bool
  | .nan => true
  | _ => false

def isZero : FV → Bool
  | .fin _ m _ => decide (m = 0)
  | _ => false

def isNeg : FV → Bool
  | .nan => false
  | .inf n => n
  | .fin n _ _ => n

/-- The value with its magnitude rounded to an integer: to the nearest, ties to even, or towards zero. -/
def toIntegral (trunc : Bool) : FV → FV
  | .fin n m e =>
    if 0 ≤ e then .fin n m e
    else if trunc then .fin n (m / 2 ^ (-e).toNat) 0
    else .fin n (rneShift m (-e).toNat) 0
  | x => x

end FV

/-! ### Integer square root and logarithms -/

/-- The integer square root by its bits, from bit `k` - 1 down. -/
def isqrtBits : Nat → Nat → Nat → Nat
  | 0, _, r => r
  | k + 1, n, r => isqrtBits k n (if (r + 2 ^ k) * (r + 2 ^ k) ≤ n then r + 2 ^ k else r)

def isqrt (n : Nat) : Nat := isqrtBits (n.log2 / 2 + 1) n 0

/-- R125: the square root of a value, with a sticky lowest bit as in `FV.div`. -/
def FV.sqrt : FV → FV
  | .nan => .nan
  | .inf n => if n then .nan else .inf false
  | .fin n m e =>
    if m = 0 then .fin n 0 0
    else if n then .nan
    else
      let (m, e) := if e % 2 = 0 then (m, e) else (2 * m, e - 1)
      let x := m * 2 ^ 60
      let r := isqrt x
      .fin false (2 * r + (if r * r = x then 0 else 1)) (e / 2 - 31)

/-! ### Block scales (R47 to R51) -/

/-- R47 -/
def e8m0 (c : Nat) : FV := if c = 255 then .nan else .fin false 1 ((c : Int) - 127)

/-- R48 -/
def e3m5 (c : Nat) : FV :=
  if c / 32 = 0 then .fin false (c % 32) (-7) else .fin false (32 + c % 32) ((c / 32 : Nat) - 8)

/-- R50: whether a BF16 band scale is positive, finite and normal. -/
def bandOk (g : Nat) : Bool := decide (0x0080 ≤ g ∧ g ≤ 0x7F7F)

/-- R51: the first code from `c` on, at most `n` further, whose scale reaches a / 6; 255 where none does. -/
def scaleFrom (scale : Nat → FV) (a : FV) : Nat → Nat → Nat
  | 0, c => c
  | n + 1, c => if FV.lt ((scale c).mul (.fin false 6 0)) a then scaleFrom scale a n (c + 1) else c

/-- The larger magnitude, NaN left out. -/
def magMax (a x : FV) : FV :=
  let y : FV := if x.isNeg then x.neg else x
  if x.isNan then a else if a.lt y then y else a

/-- R51: the element code of x / d. -/
def quantElem (x d : FV) : Nat :=
  let q := fp4e2m1.rne false (x.div d)
  if x.isNan then 0 else if q = 8 then 0 else q

/-- R51: the FP4-B8 block of eight values with band scale g (bf16): codes and E3M5 scale. R130: an invalid g gives zeros. -/
def quantB8 (xs : List FV) (g : Nat) : List Nat × Nat :=
  if bandOk g then
    let gv := bf16.decode g
    let a := xs.foldl (fun a x => magMax a x) (.fin false 0 0)
    if a.isZero then (xs.map fun _ => 0, 0)
    else
      let s := scaleFrom (fun c => (e3m5 c).mul gv) a 255 0
      (xs.map fun x => quantElem x (gv.mul (e3m5 s)), s)
  else (xs.map fun _ => 0, 0)

/-- R51: the MXFP4 block of its values: codes and E8M0 scale. -/
def quantMx (xs : List FV) : List Nat × Nat :=
  let a := xs.foldl (fun a x => magMax a x) (.fin false 0 0)
  if a.isZero then (xs.map fun _ => 0, 0)
  else
    let s := scaleFrom e8m0 a 254 0
    (xs.map fun x => quantElem x (e8m0 s), s)

/-- R50: the value of an FP4-B8 element. -/
def b8Value (g s q : Nat) : FV := if bandOk g then ((bf16.decode g).mul (e3m5 s)).mul (fp4e2m1.decode q) else .nan

/-! ### FP32 operations (R121 to R126) -/

def fw (x : Word) : FV := f32.decode x.toNat
def wf32 (x : FV) : Word := BitVec.ofNat 32 (f32.rne false x)

def faddW (a b : Word) : Word := wf32 ((fw a).add (fw b))
def fsubW (a b : Word) : Word := wf32 ((fw a).add (fw b).neg)
def fmulW (a b : Word) : Word := wf32 ((fw a).mul (fw b))
def ffmaW (d a b : Word) : Word := wf32 ((fw d).add ((fw a).mul (fw b)))

/-- R122: the lesser (or greater) of two encodings; −0 is less than +0; a NaN gives way to the other operand. -/
def Fmt.pick (F : Fmt) (greater : Bool) (a b : Nat) : Nat :=
  let x := F.decode a
  let y := F.decode b
  if x.isNan then (if y.isNan then F.nanMag.getD 0 else b)
  else if y.isNan then a
  else
    let less := x.lt y || (x.isZero && y.isZero && x.isNeg)
    if greater then (if less then b else a) else (if less then a else b)

def fminW (a b : Word) : Word := BitVec.ofNat 32 (f32.pick false a.toNat b.toNat)
def fmaxW (a b : Word) : Word := BitVec.ofNat 32 (f32.pick true a.toNat b.toNat)
def fabsW (a : Word) : Word := if (fw a).isNan then 0x7FC00000 else a &&& 0x7FFFFFFF
def fnegW (a : Word) : Word := if (fw a).isNan then 0x7FC00000 else a ^^^ 0x80000000
def fdivW (a b : Word) : Word := wf32 ((fw a).div (fw b))
def fsqrtW (a : Word) : Word := wf32 (fw a).sqrt
def frndW (a : Word) : Word := wf32 ((fw a).toIntegral false)

/-- R126 -/
def fclsW (a : Word) : Word :=
  match fw a with
  | .nan => 0x100
  | .inf n => if n then 0x001 else 0x080
  | .fin n m _ =>
    if m = 0 then (if n then 0x008 else 0x010)
    else if m < 2 ^ 23 then (if n then 0x004 else 0x020)
    else (if n then 0x002 else 0x040)

/-- R118, R82: an FCMP condition. -/
def fcond (c : Nat) (a b : Word) : Bool :=
  let x := fw a
  let y := fw b
  let un := x.isNan || y.isNan
  let lt := x.lt y
  let gt := y.lt x
  let eq := !un && !lt && !gt
  if c = 0 then eq else if c = 1 then !eq else if c = 2 then lt else if c = 3 then lt || eq
  else if c = 4 then gt else if c = 5 then gt || eq else if c = 6 then un else !un

/-! ### The bounded functions of R124 -/

/-- The spacing of f32 at the exact result's rounding, as a power of two: the unit in the last place of a magnitude encoding. -/
def ulpExp (mag : Nat) : Int := if mag / 2 ^ 23 = 0 then -149 else ((mag / 2 ^ 23 : Nat) : Int) - 150

/-- Whether |r − x| ≤ k × 2^u. -/
def near (r x : FV) (k : Nat) (u : Int) : Bool :=
  match r.add x.neg with
  | .fin _ m e => dyLe m e k u
  | _ => false

/-- R124: `raw` where it lies within `k` units in the last place of the exact result `x`, else the exact result rounded. -/
def bounded (raw : Word) (x : FV) (k : Nat) : Word :=
  let r := wf32 x
  if near (fw raw) x k (ulpExp (r.toNat % 2 ^ 31)) then raw else r

/-- Whether a finite nonzero magnitude m × 2^e is a power of two. -/
def isPow2 (m : Nat) : Bool := decide (m ≠ 0 ∧ m = 2 ^ m.log2)

/-- R124: RCP. -/
def rcpW (a : Word) : Word :=
  match fw a with
  | .nan => 0x7FC00000
  | .inf n => if n then 0x80000000 else 0
  | .fin n m e =>
    let x := (FV.fin false 1 0).div (.fin n m e)
    if m = 0 then wf32 (.inf n)
    else if isPow2 m then wf32 x
    else if wf32 x = wf32 (.inf n) then wf32 x
    else bounded (Config.rcp a) x 1

/-- 1/√(m × 2^e) for m below 2^24: the exact root truncated after more than 60 bits, with a sticky lowest bit where it is not exact,
so that every comparison with a multiple of an f32 unit, and every rounding, is that of the exact value. -/
def rsqExact (m : Nat) (e : Int) : FV :=
  let m' := if e % 2 = 0 then m else 2 * m
  let q := 2 ^ 160 / m'
  let r := isqrt q
  .fin false (2 * r + (if r * r * m' = 2 ^ 160 then 0 else 1)) (-(e / 2) - 81)

/-- R124: RSQ. −0 gives −∞. -/
def rsqW (a : Word) : Word :=
  match fw a with
  | .nan => 0x7FC00000
  | .inf n => if n then 0x7FC00000 else 0
  | .fin n m e =>
    if m = 0 then wf32 (.inf n)
    else if n then 0x7FC00000
    else
      let x := rsqExact m e
      if isPow2 m ∧ (m.log2 + e) % 2 = 0 then wf32 x else bounded (Config.rsq a) x 1

/-- 2^(f / 2^64) with 96 fractional bits, by the roots of two; short of the value by less than 2^-80. `c` is 2^(2^-i). -/
def exp2Bits : Nat → Nat → Nat → Nat → Nat
  | 0, _, _, y => y
  | k + 1, f, c, y =>
    let c := isqrt (c * 2 ^ 96)
    exp2Bits k f c (if f / 2 ^ k % 2 = 1 then y * c / 2 ^ 96 else y)

/-- 2^a for a nonzero |a| of at most 2^-31: a value on the same side of 1, nearer to it than any f32 but 1 itself, which rounds and
compares with multiples of an f32 unit as the exact value does. -/
def exp2Tiny (n : Bool) : FV := .fin false (if n then 2 ^ 60 - 1 else 2 ^ 60 + 1) (-60)

/-- 2^a for a = ±m × 2^e with 2^-31 < |a| and m below 2^24, for which a is a whole number of units of 2^-64. -/
def exp2Exact (n : Bool) (m : Nat) (e : Int) : FV :=
  let t : Int := (m * 2 ^ (e + 64).toNat : Nat)
  let t := if n then -t else t
  .fin false (exp2Bits 64 (t % 2 ^ 64).toNat (2 * 2 ^ 96) (2 ^ 96)) (t / 2 ^ 64 - 96)

/-- R124: EXP2. -/
def exp2W (a : Word) : Word :=
  match fw a with
  | .nan => 0x7FC00000
  | .inf n => if n then 0 else 0x7F800000
  | .fin n m e =>
    if m = 0 then 0x3F800000
    else if !n && dyLe 128 0 m e then 0x7F800000
    else if n && dyLe 150 0 m e then 0
    else
      let x := if dyLe m e 1 (-31) then exp2Tiny n else exp2Exact n m e
      if (FV.toIntegral true (.fin n m e)).add (.fin (!n) m e) = .fin false 0 0 then wf32 x
      else bounded (Config.exp2 a) x 2

/-- log2 of x / 2^160 with `k` fractional bits, by squaring. -/
def log2Bits : Nat → Nat → Nat → Nat
  | 0, _, y => y
  | k + 1, x, y =>
    let x := x * x / 2 ^ 160
    if 2 ^ 161 ≤ x then log2Bits k (x / 2) (2 * y + 1) else log2Bits k x (2 * y)

/-- R124: LOG2. For a in [0.5, 2] the bound is the absolute one, 2^-22. -/
def log2W (a : Word) : Word :=
  match fw a with
  | .nan => 0x7FC00000
  | .inf n => if n then 0x7FC00000 else 0x7F800000
  | .fin n m e =>
    if m = 0 then 0xFF800000
    else if n then 0x7FC00000
    else
      let k : Int := m.log2 + e
      if isPow2 m then wf32 (FV.ofInt k)
      else
        let frac := log2Bits 120 (m * 2 ^ (160 - m.log2)) 0
        let i : Int := k * 2 ^ 120 + frac
        let x := FV.fin (decide (i < 0)) i.natAbs (-120)
        if k = 0 ∨ k = -1 then (if near (fw (Config.log2 a)) x 1 (-22) then Config.log2 a else wf32 x)
        else bounded (Config.log2 a) x 2

/-! ### Conversions (R46, R127 to R129) -/

/-- An exact integer clamped to a range, and whether it lay outside (R40). -/
def clampInt (lo hi x : Int) : Int × Bool := if x < lo then (lo, true) else if hi < x then (hi, true) else (x, false)

/-- The range of an integer format. -/
def intRange (w : Nat) (signed : Bool) : Int × Int :=
  if signed then (-(2 : Int) ^ (w - 1), (2 : Int) ^ (w - 1) - 1) else (0, (2 : Int) ^ w - 1)

/-- The integer that the low bits of a register or pair hold. -/
def intValue (w : Nat) (signed : Bool) (x : Nat) : Int :=
  let y := x % 2 ^ w
  if signed && decide (2 ^ (w - 1) ≤ y) then (y : Int) - 2 ^ w else y

/-- R46: a floating-point value converted to an integer format, with the clamp's report. -/
def toIntFmt (w : Nat) (signed trunc : Bool) (x : FV) : Int × Bool :=
  let (lo, hi) := intRange w signed
  match x with
  | .nan => (0, false)
  | .inf n => (if n then lo else hi, true)
  | .fin _ _ _ =>
    match x.toIntegral trunc with
    | .fin n m e => let v : Int := m * 2 ^ e.toNat; clampInt lo hi (if n then -v else v)
    | _ => (0, false)

/-- R127: the bits of a result of a destination format in a register or pair, as a natural number below 2^64. -/
def placeInt (w : Nat) (signed : Bool) (x : Int) : Nat :=
  if w = 64 then (x % 2 ^ 64).toNat
  else if signed then (intValue w true (x % 2 ^ w).toNat % 2 ^ 32).toNat
  else (x % 2 ^ w).toNat

/-- R128: CVT of the source bits `x`: result bits and whether an integer clamp set `stat.sat`. -/
def cvtValue (sat : Bool) (src dst x : Nat) : Nat × Bool :=
  match intFmt src, floatFmt src, intFmt dst, floatFmt dst with
  | some (w, sg), _, some (w', sg'), _ =>
    let v := intValue w sg x
    if sat then
      let (lo, hi) := intRange w' sg'
      let (r, c) := clampInt lo hi v
      (placeInt w' sg' r, c)
    else (placeInt w' sg' v, false)
  | some (w, sg), _, _, some F => (F.rne sat (FV.ofInt (intValue w sg x)), false)
  | _, some F, some (w', sg'), _ =>
    let (r, c) := toIntFmt w' sg' false (F.decode (x % 2 ^ F.bits))
    (placeInt w' sg' r, c)
  | _, some F, _, some G =>
    -- R128: a format to itself is a widening, hence exact, even for an infinity under sat
    match F.decode (x % 2 ^ F.bits) with
    | .inf n => (if G.infMag.isSome && widening src dst then G.overflow false n else G.rne sat (.inf n), false)
    | v => (G.rne sat v, false)
  | _, _, _, _ => (0, false)
where
  /-- R128: the widening pairs. -/
  widening (s d : Nat) : Bool :=
    decide (s = d) || decide (d = 6) || (decide (9 ≤ s ∧ s ≤ 11) && decide (d = 7 ∨ d = 8)) || (decide (s = 11) && decide (d = 9 ∨ d = 10))

/-- R129: CVTZ. -/
def cvtzValue (src dst x : Nat) : Nat × Bool :=
  match floatFmt src, intFmt dst with
  | some F, some (w', sg') =>
    let (r, c) := toIntFmt w' sg' true (F.decode (x % 2 ^ F.bits))
    (placeInt w' sg' r, c)
  | _, _ => (0, false)

end Sys2Proof.Machine
end

