-- ==== Sys2Proof/Machine/SMap.lean ====
section
/-! DEFINITION. Sparse data by key: a list of (key, value) pairs with rising keys. Memories, register files and the tables of the
module are all held this way. `put` keeps every value; `set` also keeps the canonical form of a memory, in which no listed value
equals what an unlisted key reads as. -/

namespace Sys2Proof

/-- A finite table from numbers to values. -/
abbrev SMap (α : Type) := List (Nat × α)

namespace SMap

variable {α : Type}

/-- The value at key `k`, if one is listed. -/
def look : SMap α → Nat → Option α
  | [], _ => none
  | (a, v) :: t, k => if a = k then some v else look t k

/-- The value at key `k`, where an unlisted key reads as `d`. -/
def get (d : α) (m : SMap α) (k : Nat) : α := (look m k).getD d

/-- The table with `v` at key `k`. -/
def put : SMap α → Nat → α → SMap α
  | [], k, v => [(k, v)]
  | (a, w) :: t, k, v =>
    if k < a then (k, v) :: (a, w) :: t
    else if k = a then (k, v) :: t
    else (a, w) :: put t k v

/-- The table with nothing listed at key `k`. -/
def erase (m : SMap α) (k : Nat) : SMap α := m.filter fun p => p.1 ≠ k

/-- The canonical update: a value equal to what an unlisted key reads as is not listed. -/
def set [DecidableEq α] (d : α) (m : SMap α) (k : Nat) (v : α) : SMap α :=
  if v = d then erase m k else put m k v

/-- Rising keys, each above `lo`. -/
def risingFrom (lo : Nat) : SMap α → Bool
  | [] => true
  | (k, _) :: t => decide (lo ≤ k) && risingFrom (k + 1) t

/-- The canonical form: strictly rising keys and no entry equal to the default `d`. -/
def wf [DecidableEq α] (d : α) (m : SMap α) : Bool :=
  risingFrom 0 m && m.all fun p => decide (p.2 ≠ d)

/-- The keys listed. -/
def keys (m : SMap α) : List Nat := m.map Prod.fst

/-- The values listed, in the order of their keys. -/
def vals (m : SMap α) : List α := m.map Prod.snd

/-- The table with every value changed by `f`. -/
def mapVals (m : SMap α) (f : Nat → α → α) : SMap α := m.map fun p => (p.1, f p.1 p.2)

end SMap

end Sys2Proof
end

