-- ==== Sys2Proof/Machine/State.lean ====
section
/-! DEFINITION. The state of the module as plain data: everything R5 to R460 give the machine, from the lanes' registers to the
peer ports, and the few fields of the model's own (`agenda`, `cur`, `lastUnit`, `serial`, `free`). INVENTORY.md lists every item
with its rule. Physical addresses: a device physical address (R337) stands as it is; a host physical address stands above 2^48. -/

namespace Sys2Proof.Machine

/-! ### Names -/

/-- R79: the six scopes. -/
inductive Scope where
  | group | workgroup | gang | die | device | system
deriving DecidableEq, Repr

/-- Who executes an instruction: a split (core, group slot, split slot) or a sequencer of a core (R253). -/
inductive Issuer where
  | split (core grp slot : Nat)
  | seq (core : Nat) (copy : Bool)
deriving DecidableEq, Repr

/-- Who handed an operation to an engine: a group, by its identity, or a sequencer of a core. -/
inductive Source where
  | grp (uid : Nat)
  | seq (core : Nat) (copy : Bool)
deriving DecidableEq, Repr

/-- A step of one of the module's own agents, by the name of its row in the opcode table. -/
inductive Due where
  | spillExchange (core grp : Nat)
  | groupUnpark (core grp : Nat)
  | trapEntry (core grp : Nat)
  | yieldEnd (core grp : Nat)
  | waitallComplete (core grp : Nat)
  | fenceComplete (core grp : Nat)
  | groupEnd (core grp : Nat)
  | detachRetire (core grp : Nat)
  | triggerCount (core grp : Nat)
  | rdvComplete (core grp : Nat)
  | resultWriteback (op : Nat)
  | mappgComplete (op : Nat)
  | tlbinvComplete (op : Nat)
  | mpermDataArrive (op : Nat)
  | bcopyComplete (op : Nat)
  | lcopyComplete (op : Nat)
  | writeAcknowledged (op : Nat)
  | deferredCauseTake (core grp slot : Nat)
  | publishAccept (core grp slot : Nat)
  | acc2vComplete (core grp slot : Nat)
  | qpushGrant (queue : Nat)
  | publishCounterWrite (window : Nat)
  | pwUnregisterComplete (window : Nat)
  | barrierBankUpdate (core offset count : Nat)
  | matrixQueueAccept (core : Nat)
  | mmaPerform (core : Nat)
  | mldbComplete (core : Nat)
  | maccPerform (core : Nat)
  | mctlPerform (core : Nat)
  | narrowModeChange (core : Nat)
  | copyQueueAccept (core : Nat)
  | contextSave (core : Nat)
  | redirectApply (core : Nat)
  | tfreeComplete (core tile : Nat)
  | cwaitComplete (core unit : Nat)
  | sequencerEnd (core seq : Nat)
  | collMemberAccept (core wg : Nat)
  | quantumExpire (core wg : Nat)
  | collJoin (mem : Nat)
  | startNotice (mem : Nat)
  | collMemberComplete (mem : Nat)
  | dpostRecordRead (mem : Nat)
  | exchangeComplete (mem : Nat)
  | collStart (hub : Nat)
  | exchangePost (hub mem : Nat)
  | calendarIssue (hub set : Nat)
  | issueNotice (hub set : Nat)
  | goNotice (hub set : Nat)
  | calendarReceive (msg : Nat)
  | calendarAck (msg : Nat)
  | goMessage (msg : Nat)
  | getsMessage (msg : Nat)
  | getx (msg : Nat)
  | preq (msg : Nat)
  | done (msg : Nat)
  | act (msg : Nat)
  | deact (msg : Nat)
  | recr (msg : Nat)
  | binv (msg : Nat)
  | nack (msg : Nat)
  | tok (msg : Nat)
  | rack (msg : Nat)
  | data (msg : Nat)
  | wb (msg : Nat)
  | messageExpire (msg : Nat)
  | exchangePhaseStart (mem phase : Nat)
  | standbyIssueTimeout (set : Nat)
  | standbyGoTimeout (set : Nat)
  | standbyNogoTimeout (set : Nat)
  | attemptDeadline (miss : Nat)
  | recreateTimeout (sector : Nat)
  | recreateDeferred (sector : Nat)
  | homeSectorRead (sector : Nat)
  | deactMemoryExpire (holder sector : Nat)
  | sliceWake (die slice : Nat)
  | pageWalkComplete (die walk : Nat)
  | wayCleanComplete (die way : Nat)
  | launchAdmit (ctx cls : Nat)
  | gangPlace
  | shrinkTimeout
  | ctxKillComplete
  | cxCreate
  | cxLoadStack
  | faAssign
  | faRelease
  | frameZeroComplete
  | bundleVerifyComplete
  | queueDispatch (launch : Nat)
  | launchComplete (launch : Nat)
  | shrinkRequest (core wg need : Nat)
  | programLoad (core ctx prog : Nat)
  | preemptRequest (core ctx : Nat)
  | contextRestore (core ctx : Nat)
  | imageToBacking (core slot : Nat)
  | saveSlotZeroed (core slot : Nat)
  | lsHalfEvict (core half : Nat)
  /-- two steps that come about within others of the table: the pending writes of a sector (R314), a report to Survey (R298) -/
  | pendingMerge (die sector : Nat)
  | trapReport (core grp : Nat)
  | bootNext
deriving DecidableEq, Repr

/-- Which agent moves next, where the agenda says so: a step of the opcode table after `dt` clk, a step of the module's own that another
step calls for, or an issue by a unit. -/
inductive Turn where
  | event (dt : Nat) (ev : Instr)
  | todo (step : Due)
  | issue (who : Issuer)
deriving DecidableEq, Repr

/-! ### Groups (R5 to R38) -/

/-- What a split waits for without consuming issue slots (R27, R386). The first six kinds after `none` keep the instruction unissued and
issue it when the wait is over; the others end by the step named in their rule. -/
inductive Wait where
  | none
  | tile (entry : Nat)
  | fill (entry : Nat)
  | matrixQueue
  | copyQueue (store : Bool)
  | walk (pages : List Nat)
  | acquire
  | phase (offset : Nat) (ph : BitVec 16)
  | mappg (op : Nat)
  | tlbinv (op : Nat)
  | mperm (op : Nat)
  | acc2v (upto : Nat) (f : BitVec 4) (u : BitVec 1) (q : BitVec 2) (x : BitVec 7) (acc : Nat)
  | tfree (entry : Nat)
  | cwait (n : Nat)
  | publish (window : Nat)
deriving DecidableEq, Repr

/-- R25: a split in a slot or in a spill record (R29). -/
structure Split where
  pc : Pc
  mask : Mask
  frame : Nat := 0
  depth : Nat := 0
  age : Nat := 0
  wait : Wait := .none
  /-- the marker of the instruction that waits -/
  waitMark : Bool := false
  /-- R27: brought in by an exchange and not yet issued -/
  fresh : Bool := false
  /-- R185: acquires whose value has not arrived -/
  acq : List Nat := []
  /-- R189: the last memory instruction was a FENCE of kind .ar, or that ATOM -/
  afterFence : Bool := false
  lastAtom : Option Nat := none
deriving DecidableEq, Repr

/-- What a whole group waits for (R11, R151, R186, R199, R255, R196). -/
inductive Park where
  | run
  | marker
  | waitall
  | fence (kind : BitVec 2) (scope : Scope) (upto : Nat)
  | yield (noted : List Nat) (until_ : Nat)
  | rdv (slot : Nat) (d : BitVec 7) (m : Bool)
  | qpush (op : Nat) (queue : Nat)
  | detach
deriving DecidableEq, Repr

/-- R152: a cause taken and not yet entered. -/
structure TrapReq where
  cause : BitVec 8
  mask : Mask
  addrs : SMap Dword
  pc : Pc
  done : Bool
  slot : Nat
deriving DecidableEq, Repr

/-- R155: a deferred-cause record, with the address of each lane of its set. -/
structure Deferred where
  cause : BitVec 8
  lanes : SMap Dword
  /-- made by a result that the handler split issued -/
  sup : Bool
deriving DecidableEq, Repr

/-- R249: a copy batch. -/
structure Batch where
  isSealed : Bool
  ops : List Nat
deriving DecidableEq, Repr

/-- A group of 32 lanes (R5 to R29). -/
structure Group where
  uid : Nat
  ctx : Nat
  wg : Nat
  gid : Nat
  /-- R6: registers per lane -/
  nregs : Nat
  /-- R174: its block of the stack aperture -/
  block : Nat
  /-- R6: register, then lane -/
  v : SMap (SMap Word) := []
  /-- R7: predicate, one bit for each lane -/
  p : SMap Mask := []
  /-- R12 -/
  sregs : SMap Word := []
  /-- R9: the codes of the registers whose pending flag is set -/
  pend : List Nat := []
  exited : Mask := 0
  triggered : Mask := 0
  /-- R15 -/
  sat : Bool := false
  sup : Bool := false
  /-- R21 -/
  pfdrop : Word := 0
  /-- R20 -/
  trapcause : BitVec 8 := 0
  trapmask : Mask := 0
  trapaddr : SMap Dword := []
  trapsplit : Dword := 0
  /-- R157: the mask of the trapping split at entry, and the slot the handler split holds -/
  entryMask : Mask := 0
  handlerSlot : Nat := 0
  /-- R189: the trapping split's last memory instruction was a FENCE of kind .ar -/
  entryFence : Bool := false
  trapPend : Option TrapReq := none
  deferred : List Deferred := []
  slots : SMap Split := []
  spill : List Split := []
  /-- R28: return-stack frames; frame, then entry -/
  frames : SMap (SMap Word) := []
  park : Park := .run
  /-- R11: the parking instruction carried the marker -/
  parkMark : Bool := false
  /-- R27, R142, R297: issue slots in which the group issues nothing -/
  stall : Nat := 0
  /-- R249 -/
  newCopies : List Nat := []
  batches : SMap Batch := []
  waited : List Nat := []
  /-- R258 -/
  collNext : Nat := 0
  /-- R197: the group has sent its count; the serial before which its operations belong to its lanes' triggers -/
  countSent : Bool := false
  trigUpto : Nat := 0
  /-- R198: its identity in a queue's state words: context, die, core and slot where it started -/
  ident : Nat := 0
  /-- R298: supervisor trap reports still to be posted, oldest first: `trapcause`, `trapmask`, `trapsplit` -/
  report : List (BitVec 8 × Mask × Dword) := []
deriving DecidableEq, Repr

/-! ### Workgroups and gangs -/

/-- R258: one group's issue of the workgroup's n-th COLL. -/
structure CollIssue where
  uid : Nat
  d : BitVec 7
  mask : Mask
  desc : Dword
  tile : Nat
  word : Nat
  upto : Nat
deriving DecidableEq, Repr

/-- A workgroup on a core (R32, R35, R97, R342, R365). -/
structure Workgroup where
  uid : Nat
  ctx : Nat
  launch : Nat
  gang : Nat
  rank : Nat
  cls : Nat
  nregs : Nat
  /-- R342: partition start (core offset) and bytes -/
  base : Nat
  size : Nat
  /-- R32, R30: physical tile entries and accumulators, in order -/
  tiles : List Nat
  accs : List Nat
  bars : Nat
  emin : Nat
  emax : Nat
  /-- R68, R383: the program's region of the program store: first parcel and length -/
  rbase : Nat
  rlen : Nat
  /-- entry and attach entry, parcel offsets within the program -/
  entry : Nat
  aentry : Nat
  args : Dword
  /-- R22: field widths and the fields 2 to 5 -/
  widths : List Nat
  coords : List Nat
  shrinkTarget : Nat := 0
  shrinkReq : Bool := false
  quantum : Nat := 0
  qcount : Nat := 0
  started : Nat := 0
  /-- R258 -/
  colls : SMap (List CollIssue) := []
  collDone : Nat := 0
  /-- R198: its identity in a queue's state words -/
  ident : Nat := 0
deriving DecidableEq, Repr

/-! ### Matrix engine, tiles, copies, sequencers -/

/-- R32, R33: the state of a tile. -/
inductive TileState where
  | empty | filling | ready | draining
deriving DecidableEq, Repr

/-- R32: a tile-table entry; `reads` and `writes` count the accepted operations of R232 and R233. -/
structure Tile where
  state : TileState := .empty
  valid : Bool := false
  fmt : BitVec 4 := 0
  perm : Bool := false
  geom : BitVec 3 := 0
  base : BitVec 13 := 0
  size : BitVec 14 := 0
  wg : Nat := 0
  fills : Nat := 0
  reads : List Nat := []
  writes : List Nat := []
deriving DecidableEq, Repr

/-- A queued matrix operation (R204). Tiles, accumulators and slots are physical. -/
inductive MatrixKind where
  | mma (acc tile slot : Nat) (fmt : BitVec 4) (z perm : Bool)
  | mldb (slot : Nat) (addr : Dword)
  | acc2t (tile acc : Nat) (fmt : BitVec 4) (sat : Bool)
  | t2acc (tile acc : Nat) (fmt : BitVec 4)
  | v2acc (acc quarter : Nat) (rows : SMap (List Word))
  | mzero (acc : Nat)
  | mperm (table : List Nat)
  | mbandW (slot : Nat) (g : BitVec 16)
  | mbandA (acc : Nat) (g : BitVec 16)
deriving DecidableEq, Repr

structure MatrixOp where
  op : Nat
  src : Source
  ctx : Nat
  wg : Nat
  rows : Mask
  /-- issued by a handler split -/
  sup : Bool
  kind : MatrixKind
deriving DecidableEq, Repr

/-- R220, R223: what a queued MLDB has read at its acceptance: its stream, or the cause and the address that fail it; and the sectors whose tokens its
die still lacks, with the page, and its attribute word, through which each is reached (R358). -/
structure Stream where
  bytes : List Byte := []
  fail : Option (BitVec 8 × Nat) := none
  need : List (Nat × Option (Nat × BitVec 24)) := []
deriving DecidableEq, Repr

/-- Where a byte of a copy comes from or goes to: nowhere (a zero), physical memory, the local store of a core, a publish window. -/
inductive CopyEnd where
  | zero
  | mem (pa : Nat)
  | loc (core off : Nat)
  | window (w pa : Nat)
deriving DecidableEq, Repr

/-- One byte that a copy moves, as the engine read it at acceptance. -/
structure CopyCell where
  dst : CopyEnd
  val : Byte
  /-- the lane of an LCOPY -/
  lane : Nat
deriving DecidableEq, Repr

/-- An accepted copy (R243 to R248). -/
structure CopyOp where
  op : Nat
  src : Source
  core : Nat
  ctx : Nat
  wg : Nat
  /-- its workgroup's identity -/
  wuid : Nat := 0
  sup : Bool
  store : Bool
  lane : Bool
  /-- status register and the lanes that issued, for a group -/
  d : BitVec 7
  mask : Mask
  /-- the tile's physical entry, and whether its attribute must be met -/
  tile : Option Nat
  /-- R241: tensor base, record address, local side and box origin -/
  base : Nat
  record : Nat
  loc : Nat
  origin : List Int
  /-- R245: the local side: its core, its first byte there, and the bytes from that on in its partition or tile -/
  lcore : Nat := 0
  lfirst : Nat := 0
  lroom : Nat := 0
  /-- R55: the attribute that the tensor's pages must carry -/
  attr : Option Nat := none
  /-- R246: the sectors of memory that it reads, its record's among them -/
  reads : List Nat := []
  /-- R55: nothing is written -/
  void : Bool
  /-- the causes met -/
  causes : List Nat
  bytes : Nat
  near : Bool
  cells : List CopyCell
  /-- sectors whose tokens the engine's die has still to receive -/
  need : List Nat
  /-- R358: for each 64 KiB frame of the tensor, the page through which the engine reaches it, and its attribute word -/
  pages : SMap (Nat × BitVec 24) := []
  /-- R322: it has read poisoned data -/
  poison : Bool := false
  /-- core offset of the barrier word of an LCOPY -/
  word : Nat
  /-- R248: addresses by lane -/
  addrs : SMap Dword
  accepted : Nat
  /-- R331: clk that it has waited for the host's answers, and the clk up to which they are counted -/
  excused : Nat := 0
  excusedTo : Nat := 0
  /-- R2, R385: the core whose engine accepted it and runs it, wherever its issuer goes -/
  eng : Nat := 0
deriving DecidableEq, Repr

/-- R251: what a sequencer does. -/
inductive SeqRun where
  | idle | running | ending | ended | stopped | reported
deriving DecidableEq, Repr

/-- R251: the matrix or the copy sequencer of a core. -/
structure Sequencer where
  run : SeqRun := .idle
  pc : Pc := 0
  sregs : SMap Word := []
  owner : Option Nat := none
  /-- R68: its FORK was issued in supervisor mode, and its program lies in the supervisor image -/
  sup : Bool := false
  ctx : Nat := 0
  wg : Nat := 0
  cause : BitVec 8 := 0
  batches : SMap Batch := []
  newCopies : List Nat := []
  waited : List Nat := []
  wait : Wait := .none
deriving DecidableEq, Repr

/-- R31, R207: a weight slot. -/
structure WeightSlot where
  image : SMap Byte := []
  scale : BitVec 16 := 0x3F80
  tag : BitVec 4 := 0xF
  mark : Bool := false
deriving DecidableEq, Repr

/-- R30, R207: an accumulator, element row * 32 + col, and its band scale. -/
structure Acc where
  elems : SMap Word := []
  scale : BitVec 16 := 0x3F80
deriving DecidableEq, Repr

/-! ### Memory operations -/

/-- The unit at which an atomic or reduction executes (R188). -/
inductive AtomUnit where
  | l1 | cluster | slice | home | agent | bank
deriving DecidableEq, Repr

/-- R187, R190: what an atomic does to a location. -/
inductive AtomOp where
  | addI32 | minI32 | maxI32 | minN32 | maxN32 | and | or | xor | xchg | cas | addI64 | casI64 | faddF32
  | faddBf16x2 | faddFp8
deriving DecidableEq, Repr

/-- Where an access lands (R171). -/
inductive Space where
  | global | stack | loc (core : Nat) | host | window (w : Nat)
deriving DecidableEq, Repr

/-- One lane's access: the lane, its generic address and where it lands. -/
structure LaneAcc where
  lane : Nat
  va : Dword
  space : Space
  /-- the physical address (or core offset) of each byte accessed, in order -/
  pas : List Nat
  /-- the page's attribute word (R350), 0 elsewhere -/
  attr : BitVec 24
  /-- operand (store data, atomic operand, element index of LDX) -/
  arg : List Word
  /-- the value, once performed -/
  val : Option (List Word)
deriving DecidableEq, Repr

/-- The kinds of outstanding operation of a group (R9, R70, R182 to R190, R161, R162, R219). `ord` marks an atomic that R189 orders. -/
inductive OpKind where
  | load (bytes : Nat) (sx : Bool) (acq : Bool)
  | ldx (wide : Bool) (acq : Bool)
  | atomic (a : AtomOp) (returns : Bool) (ord : Bool)
  | pref
  | store (bytes : Nat) (rel : Bool)
  | mappg (attrs : SMap Word)
  | tlbinv (page : Option Nat)
  | mperm
  | qpush (queue : Nat)
  | qpop (queue : Nat)
  | qfree (queue : Nat)
deriving DecidableEq, Repr

/-- An outstanding operation. `upto` is the serial before which the writes of a release must be performed (R185, R275). -/
structure Op where
  op : Nat
  uid : Nat
  core : Nat
  ctx : Nat
  kind : OpKind
  scope : Scope
  d : BitVec 7
  nd : Nat
  mask : Mask
  lanes : List LaneAcc
  /-- R80: the cache hint -/
  hint : BitVec 2
  /-- R184: a write has been acknowledged by the level below the core's L1 -/
  acked : Bool
  sup : Bool
  clk : Nat
  /-- R348: the lanes whose miss, where they had one, has been made -/
  asked : List Nat := []
  /-- R343: the L1 lines that it has allocated at the least recently used position -/
  fills : List Nat := []
deriving DecidableEq, Repr

/-- R193, R194: an update on its way to a barrier word. -/
structure Arrival where
  offset : Nat
  arrivals : Nat
  drops : Nat
  attached : Nat
  uid : Nat
  ctx : Nat
  /-- operations that must be performed before the bank applies it -/
  upto : Nat
deriving DecidableEq, Repr

/-- R277: a write in the pending-write order of its die. -/
structure PWrite where
  serial : Nat
  bytes : List (Nat × Byte)
  sector : Nat
  ctx : Nat
  core : Nat
  uid : Nat
  op : Nat
  /-- R358: the virtual page, with its attribute word, through which the core wrote -/
  page : Option (Nat × BitVec 24)
  /-- R64: the operations, as group and number, whose sums a rounded shadow holds -/
  also : List (Nat × Nat) := []
  /-- R322: a plain store's -/
  plain : Bool := false
deriving DecidableEq, Repr

/-! ### Caches and translation -/

/-- R343: a sector that a core's L1 holds, by physical sector number; the most recently used first. -/
structure L1Line where
  ctx : Nat
  line : Nat
  sectors : SMap (SMap Byte)
deriving DecidableEq, Repr

/-- R353: a leaf held by a TLB; `lvl` is the level of the leaf. -/
structure TlbEntry where
  ctx : Nat
  vpage : Nat
  lvl : Nat
  leaf : Dword
deriving DecidableEq, Repr

/-- R182, R348: a line to fetch into an L2, and into the L1 too where `l1` says so, once its page is translated. -/
structure Fetch where
  uid : Nat
  core : Nat
  va : Nat
  hint : BitVec 2
  l1 : Bool
  /-- R348: the hardware's own prefetch, at rank 0 -/
  hw : Bool
deriving DecidableEq, Repr

/-- R354: a running or waiting page walk, or the fault kind with which it ended; `demand` tells whether a split waits for it. -/
structure Walk where
  walk : Nat
  ctx : Nat
  page : Nat
  fault : Option Nat
  demand : Bool
  fetches : List Fetch
deriving DecidableEq, Repr

/-- R305, R306: the tokens of a sector at a holder. -/
structure Tok where
  tokens : Nat := 0
  owner : Bool := false
  valid : Bool := false
  dirty : Bool := false
  serial : Nat := 0
deriving DecidableEq, Repr

/-- R64: an FP32 shadow of a sector's elements, with the context, the core and the page (R358) of the first operation that it serves, and the
operations whose operands it holds, as group and number. -/
structure Shadow where
  bf16 : Bool
  fmt : BitVec 4
  elems : List Word
  ctx : Nat
  core : Nat := 0
  page : Option (Nat × BitVec 24) := none
  parts : List (Nat × Nat) := []
deriving DecidableEq, Repr

/-- R344, R346: a line of an L2. -/
structure L2Line where
  ctx : Nat
  way : Nat
  rank : Nat
  used : Nat
deriving DecidableEq, Repr

/-- R313: an outstanding miss of a requester. -/
structure Miss where
  miss : Nat
  holder : Nat
  sector : Nat
  write : Bool
  attempt : Nat
  started : Nat
  core : Nat
  ctx : Nat
  /-- holders that have sent tokens -/
  answered : List Nat
  /-- holders that have refused in the running attempt -/
  refused : List Nat
  persistent : Bool
deriving DecidableEq, Repr

/-- R319: an ACT in force at a holder. -/
structure Act where
  pos : Nat
  requester : Nat
  next : Option Nat
  /-- the requester has collected the tokens and sent DONE (R318 step 4) -/
  finished : Bool := false
deriving DecidableEq, Repr

/-- R308: the coherence messages. -/
inductive MsgKind where
  | gets | getx | preq | done | act | deact | recr | binv | nack | tok | rack | data | wb
deriving DecidableEq, Repr

/-- R308: a coherence message in flight. Holders: 0-7 the L2s, 8 the port agent, 9-32 the home atomic units, 33 the home. -/
structure Msg where
  msg : Nat
  kind : MsgKind
  sector : Nat
  src : Nat
  dst : Nat
  requester : Nat
  write : Bool
  attempt : Nat
  tokens : Nat
  owner : Bool
  dirty : Bool
  serial : Nat
  pos : Nat
  next : Option Nat
  born : Nat
deriving DecidableEq, Repr

/-- R307: the residue of a sector at its home. -/
structure Residue where
  count : Nat := 16
  owner : Bool := true
  serial : Nat := 0
  parityOk : Bool := true
deriving DecidableEq, Repr

/-- R316 to R319: a sector's persistent requests and its running batch. DESIGN CHOICE (log 113): the spec gives the count of batch positions no start;
it starts at 0, and the first ACT carries 1. -/
structure Persist where
  recorded : List (Nat × Bool) := []
  batch : List Nat := []
  served : List Nat := []
  active : Option Nat := none
  pos : Nat := 0
  actClk : Nat := 0
deriving DecidableEq, Repr

/-- R321 to R323: a recreation of a sector. -/
structure Recreate where
  serial : Nat
  awaited : List Nat
  old : List Nat
  gotOwner : Bool
  parity : Bool
  /-- a holder has announced data that is still on its way -/
  due : Bool := false
deriving DecidableEq, Repr

/-- R359: an access-counter entry. -/
structure Counter where
  ctx : Nat
  page : Nat
  count : Nat
  record : Nat
  queued : Bool
  pending : Bool
deriving DecidableEq, Repr

/-- A compute die. -/
structure Die where
  clk : Nat := 0
  pw : List PWrite := []
  lines : SMap L2Line := []
  /-- R311: region and set, the most recently used first -/
  predictor : List (Nat × List Nat) := []
  /-- R315: sectors that served as persistent requester, and when -/
  served : SMap Nat := []
  tlb : List TlbEntry := []
  walks : SMap Walk := []
  walkQueue : List Walk := []
  counters : List Counter := []
  /-- R348: core, last missed line -/
  lastMiss : SMap Nat := []
  cleaning : List (Nat × Nat) := []
  /-- R345: the way mask in effect for each context -/
  ways : SMap (BitVec 16) := []
  gated : List Nat := []
  dropped : Nat := 0
  /-- R453: estimates in a row above the share, and at or below 90 % of it, and the last one in W -/
  overs : Nat := 0
  unders : Nat := 0
  estimate : Nat := 0
deriving DecidableEq, Repr

/-! ### Save area -/

/-- R387: a context image. -/
structure Image where
  ctx : Nat
  core : Nat
  cls : Nat
  half : Nat
  serial : Nat
  groups : SMap Group
  wgs : SMap Workgroup
  accs : SMap Acc
  weights : SMap WeightSlot
  perm : List Nat
  tiles : SMap Tile
  mqueue : List MatrixOp
  mseq : Sequencer
  cseq : Sequencer
  /-- R220: the streams that its queued MLDBs have read -/
  streams : SMap Stream := []
  /-- R185, R283: an acquire of a wide scope has ended since the save, and the restore invalidates the context's L1 lines -/
  acquired : Bool := false
deriving DecidableEq, Repr

/-- R388: a save slot. -/
structure SaveSlot where
  image : Option Image := none
  zeroed : Bool := true
deriving DecidableEq, Repr

/-- R342, R389: a half of the local store and the context that holds it. -/
structure Half where
  owner : Option Nat := none
deriving DecidableEq, Repr

/-- R383: a program resident in consecutive regions. -/
structure Resident where
  ctx : Nat
  prog : Nat
  va : Nat
  region : Nat
  len : Nat
  used : Nat
deriving DecidableEq, Repr

/-- R391: what the redirect buffer holds: a performed operation, or a status, that waits for the save. -/
inductive Held where
  | op (op : Nat)
  | status (uid : Nat) (d : BitVec 7) (mask : Mask) (x : Word)
  | seqStatus (copy : Bool) (d : BitVec 7) (x : Word)
deriving DecidableEq, Repr

/-- A core (R340). -/
structure Core where
  /-- R17, R19: the running context, split mode and the half it holds -/
  ctx : Option Nat := none
  split : Bool := false
  half : Nat := 0
  stacked : Bool := true
  gated : Bool := false
  /-- R385: halted for a switch, or stopped for a program load -/
  halted : Bool := false
  groups : SMap Group := []
  wgs : SMap Workgroup := []
  pstore : SMap Parcel := []
  programs : List Resident := []
  ls : SMap Byte := []
  halves : SMap Half := []
  narrow : Bool := false
  accs : SMap Acc := []
  weights : SMap WeightSlot := []
  /-- R56: the permutation table; empty stands for the identity -/
  perm : List Nat := []
  tiles : SMap Tile := []
  /-- R38: the context whose workgroups last ran here, to whom the weight slots and the permutation table belong -/
  wctx : Option Nat := none
  mqueue : List MatrixOp := []
  /-- R220: the streams that queued MLDBs have read, by operation -/
  streams : SMap Stream := []
  mseq : Sequencer := {}
  cseq : Sequencer := {}
  loadQ : List CopyOp := []
  storeQ : List CopyOp := []
  arrivals : List Arrival := []
  l1 : List L1Line := []
  tlb : List TlbEntry := []
  faults : List Walk := []
  slots : SMap SaveSlot := []
  redirect : List Held := []
  /-- R381: the group each quarter took last -/
  lastTaken : SMap Nat := []
  /-- R460: when the core last made progress -/
  progress : Nat := 0
deriving DecidableEq, Repr

/-! ### Contexts, launches -/

/-- R367: a launch queue. -/
structure LaunchQueue where
  base : Dword := 0
  size : Nat := 4
  tail : Word := 0
  head : Word := 0
  en : Bool := false
  err : Bool := false
deriving DecidableEq, Repr

/-- R399, R400: an open communicator. -/
structure Comm where
  kind : Nat
  span : Bool
  n : Nat
  lo : Nat
  hi : Nat
  grp : Nat
  seqva : Dword
  routes : List (Nat × Nat × Nat)
  sbase : Dword
  slen : Nat
  rlen : Nat
  rbase : Dword
deriving DecidableEq, Repr

/-- A context (R394, R395). The quota record itself lies in memory. -/
structure Ctx where
  live : Bool := false
  quota : Nat := 0
  stackn : Nat := 0
  blocks : List Nat := []
  queues : SMap LaunchQueue := []
  vtime : SMap Nat := []
  pinOver : Nat := 0
  comms : SMap Comm := []
  /-- R389: halves in the local-store backing: core * 2 + half, or core * 2 for a context in split mode -/
  lsBacked : List Nat := []
  /-- R356: lists whose refill request is outstanding (9 for the table list), with the count that the hardware left -/
  refills : SMap Nat := []
deriving DecidableEq, Repr

/-- R365: a launch record. -/
structure LaunchRec where
  tag : Nat
  cls : Nat
  mlight : Bool
  tpol : Nat
  prog : Nat
  entry : Nat
  aentry : Nat
  widths : List Nat
  regs : Nat
  gang : Nat
  lstore : Nat
  tiles : Nat
  accs : Nat
  barriers : Nat
  emin : Nat
  emax : Nat
  quantum : Nat
  aff : Bool
  affva : Dword
  ext : List Nat
  args : Dword
  statva : Dword
  inq : Dword
  depth : Nat
  preds : List Nat
deriving DecidableEq, Repr

/-- R368 to R371: an admitted launch. -/
structure Launch where
  launch : Nat
  ctx : Nat
  record : LaunchRec
  /-- R369: launches whose trigger it waits for -/
  holds : List Nat
  /-- gangs started, workgroups running, workgroups ended well -/
  nextGang : Nat := 0
  running : Nat := 0
  ended : Nat := 0
  outcome : Nat := 0
  cause : BitVec 8 := 0
  triggered : Bool := false
  /-- R197: workgroups, by identity, all of whose groups have sent their counts -/
  counted : List Nat := []
  /-- R197: the serial before which the writes of groups that ended untriggered must be performed at device scope -/
  relUpto : Nat := 0
  /-- R371: the serial before which its ended workgroups' writes were issued -/
  doneUpto : Nat := 0
  /-- R370: dispatches made; for a dispatch its consumer launch, its block, its number and the queue's descriptor -/
  dispatches : Nat := 0
  parent : Option Nat := none
  argsAt : Dword := 0
  dnum : Nat := 0
  queue : Nat := 0
  /-- R384: no further gang starts -/
  dead : Bool := false
deriving DecidableEq, Repr

/-- R372 to R375, R379, R380: the gang that the distributor is about to place: its launch, its number if it was started before, the
cores set aside for it, the images to restore and how many cores upward they move, the cores whose work is pre-empted, how far the
preparations are, when shrink requests were raised, and the serial before which the writes that a die keeps are merged before the images leave it. -/
structure Placing where
  launch : Nat
  gang : Option Nat
  cores : List Nat
  images : List Nat
  shift : Int
  clear : List Nat
  stage : Nat
  asked : Option Nat
  since : Nat
deriving DecidableEq, Repr

/-- R365, R373: a started gang. -/
structure Gang where
  gang : Nat
  launch : Nat
  index : Nat
  coords : List Nat
  cores : List Nat
  saved : Bool
  startSerial : Nat
deriving DecidableEq, Repr

/-- R199: the requests parked at a queue, in the order in which they reached the home atomic unit: group and operation. -/
structure Queue where
  pushers : List (Nat × Nat) := []
deriving DecidableEq, Repr

/-! ### Collectives and exchange -/

/-- Where a member operation stands: accepted, its record read, joined or posted, started or with its calendar held, running an
exchange's phases, or ready to complete. -/
inductive Stage where
  | accepted | checked | joined | started | running | ready
deriving DecidableEq, Repr

/-- R412: a phase of a calendar: start and duration in slots, and each rank's destination. -/
structure Phase where
  start : Nat
  dur : Nat
  dest : List Nat
deriving DecidableEq, Repr

/-- A member operation of a collective or an exchange (R258 to R265). -/
structure Member where
  mem : Nat
  core : Nat
  ctx : Nat
  exchange : Bool
  issues : List CollIssue
  desc : Dword
  /-- the physical address of the descriptor or record, once read, and its bytes -/
  pa : Nat := 0
  record : List Byte := []
  comm : Nat := 0
  rank : Nat := 0
  seq : Nat := 0
  n : Nat := 0
  stage : Stage := .accepted
  cause : Nat := 0
  /-- the local count from which the bound runs, and the bound -/
  clk : Nat := 0
  bound : Nat := 0
  /-- R2: the die whose counter `clk` was read from -/
  die : Nat := 0
  /-- R257: where the tile begins on the core; none once its workgroup is gone -/
  tileOff : Option Nat := none
  result : List Byte := []
  sat : Bool := false
  /-- an exchange: the calendar held, the phases begun, bytes sent and received by member -/
  total : Nat := 0
  phases : List Phase := []
  sent : List Nat := []
  from_ : List Nat := []
  g0 : Nat := 0
  begun : List Nat := []
  moved : SMap Nat := []
  rcvd : SMap Nat := []
  /-- the base dies in which it holds a command entry -/
  entries : List Nat := []
deriving DecidableEq, Repr

/-- R402: an entry of a match unit. -/
structure Match where
  hub : Nat
  ctx : Nat
  comm : Nat
  seq : Nat
  digest : List Byte
  /-- ranks and members joined -/
  joins : List (Nat × Nat)
  need : Nat
  failed : Bool
  /-- when it was completed, and whether it has started -/
  order : Option Nat
  started : Bool
  /-- the base dies in which it holds a command entry -/
  dies : List Nat
deriving DecidableEq, Repr

/-- R410: a post. -/
structure Post where
  rank : Nat
  mem : Nat
  row : List Nat
  recvcap : Nat
deriving DecidableEq, Repr

/-- R410: a post on its way to a Cartographer. -/
structure PostMsg where
  hub : Nat
  mem : Nat
  ctx : Nat
  comm : Nat
  seq : Nat
  n : Nat
  rank : Nat
  row : List Nat
  recvcap : Nat
deriving DecidableEq, Repr

/-- R410 to R415: a post set of one Cartographer. -/
structure PostSet where
  set_ : Nat
  hub : Nat
  ctx : Nat
  comm : Nat
  seq : Nat
  n : Nat
  posts : List Post
  failed : Nat
  completed : Option Nat
  issued : Option Nat
  acks : List Nat
  go : Bool
  seenIssue : Option Nat
  seenGo : Bool
deriving DecidableEq, Repr

/-- Messages of the collective plane between a Cartographer, an endpoint and the other Cartographer (R413, R415). -/
inductive XKind where
  | calendar | ack | go | issueNote | goNote
deriving DecidableEq, Repr

structure XMsg where
  msg : Nat
  kind : XKind
  hub : Nat
  set_ : Nat
  mem : Nat
deriving DecidableEq, Repr

/-! ### Module integration -/

/-- R438, R201, R330: a publish window. -/
structure Window where
  base : Dword := 0
  len : Word := 0
  ctr : Dword := 0
  ctx : Nat := 0
  en : Bool := false
  busy : Bool := false
  result : Nat := 0
  /-- staged bytes by host physical address, in store order -/
  staged : List (Nat × Byte) := []
  /-- accepted publishes with their drain sets, oldest first -/
  drains : List (List (Nat × Byte)) := []
deriving DecidableEq, Repr

/-- R441: a flit header. -/
structure Header where
  seq : Nat := 0
  ack : Nat := 0
  ackv : Bool := false
  kidx : Nat := 0
  typ : Nat := 0
  vc : Nat := 0
  ctr : Nat := 0
  dpkg : Nat := 0
deriving DecidableEq, Repr

/-- R440, R442: a flit as sent, with the 224 B of its payload and its tag, and how often it has gone again. -/
structure Flit where
  head : Header
  payload : List Byte
  tag : List Byte
  replays : Nat := 0
deriving DecidableEq, Repr

/-- R442, R443: a flit that waits for room in the replay buffer, or for the first key: type, channel, destination and what it says. -/
structure Unsent where
  typ : Nat
  vc : Nat
  dpkg : Nat
  text : List Byte
deriving DecidableEq, Repr

/-- R443: a key of one direction, and its salt. -/
structure LinkKey where
  key : List Byte
  salt : List Byte
deriving DecidableEq, Repr

/-- R443, R444: what the key exchange that runs on a port is for: nothing, the first keys, a rollover of this side's, or one of the peer's. -/
inductive KeyRun where
  | idle | first | own | peer
deriving DecidableEq, Repr

/-- R440 to R446: a peer port. -/
structure Port where
  up : Bool := false
  enc : Bool := false
  kidx : Nat := 0
  roll : Bool := false
  replays : Nat := 0
  en : Bool := false
  /-- R445: training has started and has not ended -/
  training : Bool := false
  nextSeq : Nat := 0
  expected : Nat := 0
  /-- whether a flit has been accepted since the port trained -/
  got : Bool := false
  buffer : List Flit := []
  waiting : List Unsent := []
  /-- R443: the keys held, by index -/
  txKeys : SMap LinkKey := []
  rxKeys : SMap LinkKey := []
  ctr : Nat := 0
  naked : Bool := false
  /-- R446: lost since it was last enabled -/
  lost : Bool := false
  /-- R444: the index that the peer is to retire, and whether another rollover is to follow -/
  lastOld : Option Nat := none
  rollAgain : Bool := false
  /-- R443: the exchange that runs, and what has gone to and fro in it -/
  keyRun : KeyRun := .idle
  transcript : List Byte := []
  /-- R442: when a flit last arrived -/
  heard : Nat := 0
  /-- flits handed to the lanes, and the headers of those accepted -/
  out : List Flit := []
  received : List Header := []
deriving DecidableEq, Repr

/-- R435: the requests that the module makes of the host over CXL.cache. -/
inductive HostReq where
  | rdShared | rdOwn | itoMWr | dirtyEvict
deriving DecidableEq, Repr

/-- R451: the signature algorithm that Datum reports. -/
inductive SigAlg where
  | vendorFalcon1024
deriving DecidableEq, Repr

/-- R459: an error record. -/
structure ErrorRec where
  code : BitVec 8
  src : Nat
  die : Nat
  core : Nat
  ctx : Nat
  ctxv : Bool
  time : Nat
  detail : Nat
deriving DecidableEq, Repr

/-- R163: a halt record, as the control processor receives it: context, work-identifier fields 2 to 5, `trapcause`, `trapsplit`. -/
structure HaltRecord where
  ctx : Nat
  fields : List Nat
  cause : BitVec 8
  trapsplit : Dword
deriving DecidableEq, Repr

/-- R437: the registers of the BAR and of the control processor's space that R360, R364, R393, R395, R398, R452, R456 and R458
lay down, and the agents' state behind them. -/
structure Regs where
  bootStep : Nat := 1
  bootFail : Nat := 0
  ready : Bool := false
  bootLen : Word := 0
  staging : SMap Byte := []
  nqBase : Dword := 0
  nqSize : Nat := 8
  nqHead : Word := 0
  nqTail : Word := 0
  nqOver : Word := 0
  erBase : Dword := 0
  erSize : Nat := 8
  erHead : Word := 0
  erTail : Word := 0
  erOver : Word := 0
  /-- R458: the memory of the control processor, as far as the hub writes it -/
  cpMem : SMap Byte := []
  /-- R163: halt records sent to the control processor -/
  halts : List HaltRecord := []
  wdPeriod : BitVec 16 := 100
  killCtx : Nat := 0
  killing : Bool := false
  /-- R457: a warm reset is killing contexts -/
  resetting : Bool := false
  commOpen : Dword := 0
  commClose : Dword := 0
  commBusy : Bool := false
  commResult : Nat := 0
  aszCap : BitVec 16 := 900
  aszShare : SMap (BitVec 16) := []
  alarm : BitVec 8 := 0
  emerg : BitVec 8 := 0
  cxQuota : BitVec 48 := 0
  cxCtx : Nat := 0
  cxOp : Nat := 0
  cxBusy : Bool := false
  cxResult : Nat := 0
  faDpa : BitVec 48 := 0
  faCtx : Nat := 0
  faSize : Nat := 0
  faRel : Bool := false
  faBusy : Bool := false
  faZeroing : Bool := false
  faResult : Nat := 0
  memLight : Nat := 24
  /-- R368: quads that Survey has taken out of service -/
  deadQuads : List Nat := []
  holderMask : List Nat := []
  q : Nat := 16
  /-- R336: a context has been created, and Q holds until the module's next reset -/
  qHeld : Bool := false
  gazetteer : SMap Nat := []
  otpSeed : BitVec 384 := 0
  otpVkey : BitVec 2048 := 0
  otpRevoked : BitVec 4 := 0
  otpSecver : BitVec 64 := 0
  otpSerial : BitVec 64 := 0
  /-- R451: the digest of the identity certificate, in OTP, and the certificate, in read-only configuration memory -/
  otpCert : BitVec 512 := 0
  identCert : List Byte := []
  /-- R447: the public half of the identity key pair, once Datum has derived it -/
  identity : List Byte := []
  slots : SMap (List Byte) := []
  responses : Nat := 0
  /-- R451: the last answer of the DOE mailbox -/
  doe : List Byte := []
  doeAlg : Option SigAlg := none
  /-- R435: the IDE keys, by stream: 0 CXL.cachemem, 1 the selective stream of CXL.io -/
  ideKeys : SMap (List Byte) := []
  /-- R437: accesses of the BAR that completed as an Unsupported Request -/
  unsupported : Nat := 0
  ucie : List Nat := [0, 1, 2, 3]
  hostUp : Bool := true
deriving DecidableEq, Repr

/-- Why the machine stops with a fault. The spec gives the hardware no fault that stops it: every cause is a trap, a status, or a
stop of a workgroup. -/
inductive Fault where
  /-- `exec` is asked for an instruction of the core, and the state names no live split or sequencer that issues it. Raised by every
  meaning of an encoded instruction. Safe: hardware issues an instruction only for a split or a sequencer (R27, R253), and no step
  of the model executes one otherwise. -/
  | noIssuer
deriving DecidableEq, Repr

/-- Why a meaning is refused. -/
inductive Refusal where
  /-- The instruction has no meaning yet; raised by its arm of `exec` alone. Safe: the model stops where the hardware goes on. -/
  | notModelled (mnemonic : String)
deriving DecidableEq, Repr

/-- The state of the module. -/
structure State where
  /-- the model's own: who moves next -/
  agenda : List Turn := []
  /-- the model's own: who executes the instruction at hand -/
  cur : Option Issuer := none
  lastUnit : Nat := 0
  /-- the model's own: whether the last step was an issue, and how many steps of the module's own agents the model has tried -/
  issued : Bool := false
  lastDue : Nat := 0
  serial : Nat := 0
  free : Nat := 0
  /-- merged bytes of device and host memory (R276), by physical address -/
  mem : SMap Byte := []
  /-- R362: owner tags by 64 KiB frame number -/
  tags : SMap (BitVec 9) := []
  /-- R339: sectors whose stored data cannot be corrected; R322: poisoned sectors -/
  badSectors : List Nat := []
  /-- R339: uncorrectable words of on-die arrays: 0 the local store, 1 the L1 of a core, 2 the L2 of a die; the core or die; the word's byte
  address divided by 4 -/
  badSram : List (Nat × Nat × Nat) := []
  poisoned : List Nat := []
  residues : SMap Residue := []
  persists : SMap Persist := []
  recreates : SMap Recreate := []
  lastRecreate : SMap Nat := []
  /-- R323: recreations held back -/
  recrHeld : List Nat := []
  /-- R313: sectors whose home read has begun or is held -/
  homeReads : SMap Bool := []
  homeAnswers : List Msg := []
  /-- R305, R306, R325 to R327: tokens of the L2s, the home atomic units and the port agent, by sector * 64 + holder -/
  toks : SMap Tok := []
  /-- R64: the FP32 shadows, by sector * 64 + holder -/
  shadows : SMap Shadow := []
  /-- R319: the ACT in force at each holder, by sector * 64 + holder; remembered DEACTs: that key, position, clk -/
  acts : SMap Act := []
  deacts : List (Nat × Nat × Nat) := []
  /-- R326 to R329: the host's line states of device sectors (0 I, 1 S, 2 E, 3 M) and the agent's own of sectors of host memory, the
  requests that wait for the host's answer, the host reads in progress (0 for MetaValue A, 1 S, 2 I), the data of host writes whose
  tokens the agent collects, and the recalls that host snoops have started (sector, invalidate) -/
  hostLines : SMap Nat := []
  agentAnswers : List Msg := []
  hostReads : SMap Nat := []
  hostWrites : SMap (List Byte) := []
  recalls : List (Nat × Bool) := []
  /-- R329, R330, R435: the requests made of the host, by host sector -/
  hostReqs : List (HostReq × Nat) := []
  misses : SMap Miss := []
  msgs : List Msg := []
  ops : SMap Op := []
  dies : SMap Die := []
  cores : SMap Core := []
  ctxs : SMap Ctx := []
  launches : SMap Launch := []
  gangs : SMap Gang := []
  placing : Option Placing := none
  queues : SMap Queue := []
  backing : List Image := []
  members : SMap Member := []
  matches_ : List Match := []
  /-- R409: start handshakes that have arrived: context * 65536 + communicator, sequence, first rank of the package -/
  spanSeen : List (Nat × Nat × Nat) := []
  /-- R408: failed lanes by base die and hub, failed adders by base die, failed hubs -/
  deadLanes : List (Nat × Nat) := []
  deadAdders : List Nat := []
  deadHubs : List Nat := []
  /-- by set * 2 + hub -/
  postSets : SMap PostSet := []
  xmsgs : List XMsg := []
  /-- R410: the posts that no Cartographer has accepted -/
  postQ : List PostMsg := []
  windows : SMap Window := []
  ports : SMap Port := []
  regs : Regs := {}
  /-- R367: the distributor's turn, by context * 4 + class -/
  lqTurn : Nat := 0
deriving DecidableEq, Repr

/-- The machine right after a cold reset (R456): step 1 of the boot runs, the host link is not trained, device memory is zero with every residue at
16 tokens (step 3), and there is no context and no program. -/
def State.reset : State := { regs := { ucie := [], hostUp := false } }

end Sys2Proof.Machine
end

