-- ==== Sys2Proof/Machine/Ops.lean ====
section
/-! DEFINITION. Named operations over the state: cores, dies and groups; registers and predicates; splits, their division, merging
and spilling (R25 to R29, R142, R143, R297); bytes of memory (R276, R277); the quota record (R394); stop causes (R163, R170); taking
a trap and leaving a handler (R152 to R157). -/

namespace Sys2Proof.Machine

/-! ### Numbers, lanes and lists -/

/-- The lanes of a mask, in ascending order. -/
def lanes (m : Mask) : List Nat := (List.range 32).filter fun L => m.getLsbD L

/-- The lowest lane of a mask (R8: a split has at least one). -/
def lowest (m : Mask) : Nat := ((lanes m).head?).getD 0

/-- The mask of a list of lanes. -/
def maskOf (l : List Nat) : Mask := l.foldl (fun a L => a ||| (1 <<< L)) 0

/-- The mask of the lanes below 32 that a test accepts. -/
def maskWhere (f : Nat → Bool) : Mask := maskOf ((List.range 32).filter fun L => f L)

/-- The least element of a list by a measure; the first of equals. -/
def leastBy {α : Type} (f : α → Nat) : List α → Option α
  | [] => none
  | x :: t => match leastBy f t with
    | none => some x
    | some y => if f y < f x then some y else some x

/-- `n` bytes of a number, least significant first. -/
def toBytes : Nat → Nat → List Byte
  | 0, _ => []
  | n + 1, x => BitVec.ofNat 8 x :: toBytes n (x / 256)

/-- The number whose bytes, least significant first, are given (R177). -/
def ofBytes : List Byte → Nat
  | [] => 0
  | b :: t => b.toNat + 256 * ofBytes t

/-- The numbers from `a` on. -/
def fromN (a n : Nat) : List Nat := (List.range n).map fun k => a + k

/-- The lowest number below `n` that a list does not hold. -/
def lowestFree (n : Nat) (used : List Nat) : Option Nat := (List.range n).find? fun k => !used.contains k

/-- ⌈a / b⌉ -/
def ceilDiv (a b : Nat) : Nat := (a + b - 1) / b

/-! ### Cores, dies, groups -/

/-- R1: twelve cores a die. -/
def dieOf (c : Nat) : Nat := c / 12

def State.core (s : State) (c : Nat) : Core := s.cores.get {} c
def State.setCore (s : State) (c : Nat) (k : Core) : State := { s with cores := s.cores.put c k }
def State.die (s : State) (d : Nat) : Die := s.dies.get {} d
def State.setDie (s : State) (d : Nat) (k : Die) : State := { s with dies := s.dies.put d k }
def State.ctx (s : State) (x : Nat) : Ctx := s.ctxs.get {} x
def State.setCtx (s : State) (x : Nat) (k : Ctx) : State := { s with ctxs := s.ctxs.put x k }
def State.clkOf (s : State) (c : Nat) : Nat := (s.die (dieOf c)).clk

def State.grp (s : State) (c g : Nat) : Option Group := (s.core c).groups.look g
def Core.setGrp (k : Core) (g : Nat) (x : Group) : Core := { k with groups := k.groups.put g x }
def State.setGrp (s : State) (c g : Nat) (x : Group) : State := s.setCore c ((s.core c).setGrp g x)
def State.wgOf (s : State) (c w : Nat) : Option Workgroup := (s.core c).wgs.look w
def State.setWg (s : State) (c w : Nat) (x : Workgroup) : State :=
  s.setCore c { s.core c with wgs := (s.core c).wgs.put w x }

/-- The next serial number, and the state that has used it. -/
def State.take (s : State) : Nat × State := (s.serial, { s with serial := s.serial + 1 })

/-- The groups of a workgroup on its core, with their slots. -/
def Core.groupsOf (k : Core) (w : Nat) : List (Nat × Group) := k.groups.filter fun p => p.2.wg = w

/-! ### Registers (R6 to R12, R76, R77) -/

/-- R6: the value of register `r` in a lane. -/
def Group.vget (g : Group) (r L : Nat) : Word := SMap.get 0 (g.v.get [] r) L
def Group.vset (g : Group) (r L : Nat) (x : Word) : Group := { g with v := g.v.set [] r (SMap.set 0 (g.v.get [] r) L x) }
/-- R12 -/
def Group.sget (g : Group) (r : Nat) : Word := g.sregs.get 0 r
def Group.sset (g : Group) (r : Nat) (x : Word) : Group := { g with sregs := g.sregs.set 0 r x }
/-- R7 -/
def Group.pget (g : Group) (n : Nat) : Mask := g.p.get 0 n
def Group.pset (g : Group) (n : Nat) (m : Mask) : Group := { g with p := g.p.set 0 n m }

/-- R76: the value that a 7-bit register code supplies to a lane. -/
def Group.rd (g : Group) (code L : Nat) : Word := if code < 96 then g.vget code L else g.sget (code - 96)

/-- R77: a pair, low register first. -/
def Group.rd64 (g : Group) (code L : Nat) : Dword := g.rd (code + 1) L ++ g.rd code L

/-- `n` consecutive registers. -/
def Group.rdN (g : Group) (code n L : Nat) : List Word := (fromN code n).map fun r => g.rd r L

/-- R8: writes the lanes of a mask; an s register receives the lowest lane's value. -/
def Group.wr (g : Group) (code : Nat) (k : Mask) (f : Nat → Word) : Group :=
  if code < 96 then (lanes k).foldl (fun g L => g.vset code L (f L)) g
  else g.sset (code - 96) (f (lowest k))

/-- R8, R77: writes a pair. -/
def Group.wr64 (g : Group) (code : Nat) (k : Mask) (f : Nat → Dword) : Group :=
  (g.wr code k fun L => (f L).setWidth 32).wr (code + 1) k fun L => (f L).extractLsb' 32 32

/-- Writes consecutive registers from a list of words for each lane. -/
def Group.wrN (g : Group) (code n : Nat) (k : Mask) (f : Nat → List Word) : Group :=
  (List.range n).foldl (fun g i => g.wr (code + i) k fun L => (f L).getD i 0) g

/-- R149: a result that arrives: the lanes that have exited since discard it. -/
def Group.wrLive (g : Group) (code n : Nat) (k : Mask) (f : Nat → List Word) : Group :=
  if k &&& ~~~ g.exited = 0 then g else g.wrN code n (if code < 96 then k &&& ~~~ g.exited else k) f

/-- R9: sets and clears pending flags. -/
def Group.setPend (g : Group) (code n : Nat) : Group :=
  { g with pend := g.pend ++ (fromN code n).filter fun r => !g.pend.contains r }
def Group.clearPend (g : Group) (code n : Nat) : Group :=
  { g with pend := g.pend.filter fun r => !(decide (code ≤ r) && decide (r < code + n)) }

/-! ### Splits (R25 to R29) -/

/-- R28: the return-stack entries in use of a frame. -/
def Group.stack (g : Group) (frame depth : Nat) : List Word :=
  (List.range depth).map fun i => SMap.get 0 (g.frames.get [] frame) i

/-- R143: two splits count as standing at one PC. -/
def Group.samePlace (g : Group) (a b : Split) : Bool :=
  decide (a.pc = b.pc) && decide (a.depth = b.depth) && decide (g.stack a.frame a.depth = g.stack b.frame b.depth)

/-- Whether a split's wait keeps an instruction that has already been issued: such a split does not merge. -/
def Wait.midway : Wait → Bool
  | .phase _ _ | .mappg _ | .tlbinv _ | .mperm _ | .acc2v _ _ _ _ _ _ | .tfree _ | .publish _ => true
  | _ => false

/-- R26, R29, R143: the merged split: union of the masks, the smaller age, the lower frame. -/
def Split.merge (a b : Split) : Split :=
  { a with
    mask := a.mask ||| b.mask
    frame := min a.frame b.frame
    age := min a.age b.age
    wait := .none
    fresh := a.fresh && b.fresh
    acq := a.acq ++ b.acq.filter fun x => !a.acq.contains x
    afterFence := a.afterFence && b.afterFence
    lastAtom := if a.lastAtom = b.lastAtom then a.lastAtom else none }

/-- R37, R152: whether a split runs the trap handler: in supervisor mode, in lanes that the trapping split held. A handler split that divides
(R142) leaves several. -/
def Group.handles (g : Group) (x : Split) : Bool := g.sup && decide (x.mask &&& g.entryMask ≠ 0)

/-- R152: whether the split of a slot has taken a cause that it has still to enter. -/
def Group.trapping (g : Group) (i : Nat) : Bool := g.trapPend.any fun t => t.slot = i

/-- R297: merges the splits of two slots, into the lower slot. A split that runs the handler merges only with another that does, and one that
has taken a cause with none until the handler has left (R152). -/
def Group.mergeSlots (g : Group) (i j : Nat) : Group :=
  match g.slots.look i, g.slots.look j with
  | some a, some b =>
    if g.samePlace a b && !a.wait.midway && !b.wait.midway && g.handles a == g.handles b && !g.trapping i && !g.trapping j then
      { g with slots := (g.slots.put i (a.merge b)).filter fun p => decide (p ≠ (j, b)) }
    else g
  | _, _ => g

/-- R26: merges every pair of slots that stand at one place. -/
def Group.mergeAll (g : Group) : Group :=
  [(0, 1), (0, 2), (0, 3), (1, 2), (1, 3), (2, 3)].foldl (fun g p => g.mergeSlots p.1 p.2) g

/-- R26: the order of splits by PC, equal PCs by their lowest lanes. -/
def Split.rank (x : Split) : Nat := x.pc.toNat * 32 + lowest x.mask

/-- R26, R27: the record of lowest PC; equal PCs go to the lower lowest lane. -/
def Group.lowestRecord (g : Group) : Option Split := leastBy Split.rank g.spill

/-- R26, R297: reloads the record of lowest PC into a free slot; two issue slots. -/
def Group.reload1 (g : Group) : Group :=
  match lowestFree 4 g.slots.keys, g.lowestRecord with
  | some i, some r =>
    { g with slots := g.slots.put i r, spill := g.spill.filter (fun x => decide (x ≠ r)), stall := g.stall + 2 }.mergeAll
  | _, _ => g

/-- Repeats a change. -/
def iter {α : Type} (f : α → α) : Nat → α → α
  | 0, x => x
  | n + 1, x => iter f n (f x)

/-- R26, R297: merges and reloads until nothing more moves. -/
def Group.settle (g : Group) : Group :=
  let g := g.mergeAll
  if g.spill.isEmpty then g else iter Group.reload1 28 g

/-- R26, R147, R297: the same while the split of a slot is about to take a cause. -/
def Group.settleBut (g : Group) (slot : Nat) : Group :=
  { ({ g with trapPend := some ⟨0, 0, [], 0, false, slot⟩ } : Group).settle with trapPend := g.trapPend }

/-- R25, R27, R37: an issue slot of the group: every age grows but the issuing split's, which becomes 0; ages saturate at 4095. In
supervisor mode the ages of the splits outside the handler do not advance. -/
def Group.tick (g : Group) (slot : Option Nat) : Group :=
  let older (x : Split) : Split := if g.sup && !g.handles x then x else { x with age := min (x.age + 1) 4095 }
  { g with
    slots := g.slots.mapVals fun i x =>
      if slot = some i then { x with age := 0, fresh := false, wait := .none, waitMark := false } else older x
    spill := g.spill.map older }

/-- Sets the PC of a slot. -/
def Group.goto (g : Group) (slot : Nat) (pc : Pc) : Group :=
  match g.slots.look slot with
  | some x => { g with slots := g.slots.put slot { x with pc := pc } }
  | none => g

/-- Changes the split of a slot. -/
def Group.modSlot (g : Group) (slot : Nat) (f : Split → Split) : Group :=
  match g.slots.look slot with
  | some x => { g with slots := g.slots.put slot (f x) }
  | none => g

/-- R155: a deferred record that a split of the group will take: none while its handler runs. -/
def Group.meetsRecord (g : Group) : Bool :=
  !g.sup && g.deferred.any fun r => r.lanes.any fun p => g.slots.any (fun q => q.2.mask.getLsbD p.1) || g.spill.any fun x => x.mask.getLsbD p.1

/-- R11: the switch marker parks the group while its pending count is not zero. R155: a group that has a deferred cause to take does not stay
parked. -/
def Group.mark (g : Group) (m : Bool) : Group :=
  if m && !g.pend.isEmpty && decide (g.park = .run) && !g.meetsRecord then { g with park := .marker } else g

/-- The end of an issue: the split's PC, ages, marker, merging and reloading. -/
def Group.retire (g : Group) (slot : Nat) (pc : Pc) (m : Bool) : Group :=
  (((g.tick (some slot)).goto slot pc).mark m).settle

/-- R27, R142, R297: an issue slot in which the group issues nothing. -/
def Group.idle (g : Group) : Group := { g.tick none with stall := g.stall - 1 }

/-- A split that waits without consuming an issue slot (R27). -/
def Group.hold (g : Group) (slot : Nat) (w : Wait) (m : Bool) : Group :=
  g.modSlot slot fun x => { x with wait := w, waitMark := m }

/-- R142: frames in use. -/
def Group.framesUsed (g : Group) : List Nat :=
  (g.slots.vals.map (·.frame)) ++ (g.spill.map (·.frame))
    ++ (if g.sup then [(g.trapsplit.extractLsb' 52 5).toNat] else [])

/-- R142: gives a new part its own frame with a copy of the parent's entries; ⌈depth/4⌉ issue slots. -/
def Group.newPart (g : Group) (parent : Split) (pc : Pc) (mask : Mask) : Group × Split :=
  let f := (lowestFree 32 g.framesUsed).getD 0
  ({ g with frames := g.frames.put f (g.frames.get [] parent.frame), stall := g.stall + ceilDiv parent.depth 4 },
   { parent with pc := pc, mask := mask, frame := f, age := 0, wait := .none, fresh := false })

/-- R26: of the splits in slots that a test accepts, the one with the highest PC; of equals, the one with the higher lowest lane. -/
def Group.highest (g : Group) (f : Split → Bool) : Option (Nat × Split) :=
  leastBy (fun p : Nat × Split => 2 ^ 22 - p.2.rank) (g.slots.filter fun p => f p.2)

/-- R26: the split of a slot is written as a record. -/
def Group.spillSlot (g : Group) (p : Nat × Split) : Group :=
  { g with slots := g.slots.filter fun q => decide (q ≠ p), spill := g.spill ++ [p.2] }

/-- R26: the split that spills while more than four stand in slots: the one with the highest PC. R146: the split of mask `keep` (0 for none)
stays; where R26 would spill it, the part of `parent` with the highest PC that still stands in a slot goes last, in its place. -/
def Group.spillNext (g : Group) (keep parent : Mask) : Option (Nat × Split) :=
  match g.highest fun _ => true with
  | none => none
  | some p =>
    if keep = 0 ∨ p.2.mask ≠ keep then some p
    else
      let others := g.highest fun x => decide (x.mask ≠ keep)
      if 5 < g.slots.length then others
      else (g.highest fun x => decide (x.mask ≠ keep) && decide (x.mask &&& parent ≠ 0)).or others

/-- R26, R146: writes a record while more than four splits stand in slots. -/
def Group.spillOne (keep parent : Mask) (g : Group) : Group :=
  if g.slots.length ≤ 4 then g
  else match g.spillNext keep parent with
    | some p => g.spillSlot p
    | none => g

/-- After spilling, the splits above slot 3 move to the free slots, in ascending PC order. -/
def Group.compact (g : Group) : Group :=
  iter (fun g =>
    match lowestFree 4 g.slots.keys, leastBy (fun p : Nat × Split => p.2.pc.toNat) (g.slots.filter fun p => decide (4 ≤ p.1)) with
    | some i, some (j, x) => { g with slots := SMap.put (g.slots.filter fun p => decide (p ≠ (j, x))) i x }
    | _, _ => g) 32 g

/-- R142, R146: divides the split of a slot. `parts` are the PCs and masks in ascending order of PC; the first keeps the slot, the
frame, the depth and the entries. -/
def Group.divide (g : Group) (slot : Nat) (parts : List (Pc × Mask)) (keep : Mask) : Group :=
  match g.slots.look slot, parts with
  | some sp, (pc, mask) :: rest =>
    let g : Group := { g with slots := g.slots.put slot { sp with pc := pc, mask := mask, age := 0 } }
    let g := rest.foldl (fun g p =>
      let (g, x) := g.newPart sp p.1 p.2
      let i := (lowestFree 40 g.slots.keys).getD (g.slots.keys.foldl max 0 + 1)
      { g with slots := g.slots.put i x }) g
    ((iter (Group.spillOne keep sp.mask) 32 g).compact)
  | _, _ => g

/-! ### Bytes of memory (R276, R277, R337, R339) -/

/-- R276: the merged byte of a physical address. -/
def State.merged (s : State) (a : Nat) : Byte := s.mem.get 0 a
def State.setMerged (s : State) (a : Nat) (b : Byte) : State := { s with mem := s.mem.set 0 a b }

/-- Merges bytes in order. -/
def State.mergeBytes (s : State) (l : List (Nat × Byte)) : State := l.foldl (fun s p => s.setMerged p.1 p.2) s

/-- The latest of the pending writes that names an address. -/
def pendingByte (pw : List PWrite) (a : Nat) : Option Byte :=
  pw.foldl (fun r w => w.bytes.foldl (fun r p => if p.1 = a then some p.2 else r) r) none

/-- R277: the die view of a byte. -/
def State.dieView (s : State) (d a : Nat) : Byte := (pendingByte (s.die d).pw a).getD (s.merged a)

/-- Little-endian reads of merged bytes and of a die's view. -/
def State.rdM (s : State) (a n : Nat) : Nat := ofBytes ((fromN a n).map s.merged)
def State.rdD (s : State) (d a n : Nat) : Nat := ofBytes ((fromN a n).map (s.dieView d))

/-- The bytes of a little-endian write. -/
def cellsOf (a n x : Nat) : List (Nat × Byte) := (fromN a n).zip (toBytes n x)

/-- R305: sector numbers; host memory stands above 2^48. -/
def sectorOf (a : Nat) : Nat := a / 64
def hostBase : Nat := 2 ^ 48

/-- R339, R322: the sectors that one merge covers whole are correctable again, and where a plain store merges they are no longer poisoned. -/
def State.healSectors (s : State) (plain : Bool) (l : List (Nat × Byte)) : State :=
  if s.badSectors.isEmpty && s.poisoned.isEmpty then s
  else
    let full (sec : Nat) : Bool := (fromN (64 * sec) 64).all fun a => l.any fun p => p.1 = a
    { s with
      badSectors := s.badSectors.filter fun x => !full x
      poisoned := s.poisoned.filter fun x => !(plain && full x) }

/-! ### Tokens (R304 to R307, R338) -/

def isHostSec (sec : Nat) : Bool := decide (2 ^ 42 ≤ sec)

/-- R338: the stack in which an offset of a placement is held, its pseudo-channel and its stack address; `q` is the size of the spread part in
GiB. -/
def stackOf (code o : Nat) : Nat :=
  if code < 8 then 3 * code + o / 256 % 3
  else
    let m := o / 4096
    (m % 24 + 5 * (m / 24)) % 24

def pseudoChannel (code o : Nat) : Nat :=
  if code < 8 then
    let n := o / 256
    (n / 3 % 64) ^^^ (n / 192 % 64)
  else (16 * (o / 4096 / 24) + o / 256 % 16) % 64

def stackAddr (q code o : Nat) : Nat :=
  if code < 8 then o / 256 / 3 * 256 + o % 256 else (64 - q) * 2 ^ 30 + o / 4096 / 24 * 4096 + o % 4096

/-- R338: the base die in which a sector of device memory is homed. -/
def homeBase (sec : Nat) : Nat := stackOf (sec / 2 ^ 38 % 16) ((sec % 2 ^ 38) * 64)

/-- Holders: 0 to 7 the L2s, 8 the port agent, 9 + b the home atomic unit of base die b, 33 the home (R304). -/
def agentId : Nat := 8
def homeId : Nat := 33
def unitId (sec : Nat) : Nat := 9 + homeBase sec

/-- R304, R329: who acts as the home of a sector. -/
def homeOf (sec : Nat) : Nat := if isHostSec sec then agentId else homeId

/-- R304: every holder of a sector. -/
def holdersOf (sec : Nat) : List Nat :=
  if isHostSec sec then List.range 9 else List.range 9 ++ [unitId sec, homeId]

def holderKey (h sec : Nat) : Nat := sec * 64 + h

/-- What a holder without a record holds: nothing, but for the agent and a sector of host memory, whose home it is. -/
def tokDefault (h sec : Nat) : Tok := if isHostSec sec && decide (h = agentId) then ⟨16, true, true, false, 0⟩ else {}

/-- R306, R307: the tokens of a holder. -/
def State.tok (s : State) (h sec : Nat) : Tok :=
  if h = homeId then
    let r := s.residues.get {} sec
    ⟨r.count, r.owner, r.owner, false, r.serial⟩
  else s.toks.get (tokDefault h sec) (holderKey h sec)

def State.setTok (s : State) (h sec : Nat) (t : Tok) : State :=
  if h = homeId then
    { s with residues := s.residues.set {} sec { s.residues.get {} sec with count := t.tokens, owner := t.owner, serial := t.serial } }
  else { s with toks := s.toks.set (tokDefault h sec) (holderKey h sec) t }

/-- R305: whether a holder may read, and whether it may write. -/
def Tok.canRead (t : Tok) : Bool := t.valid && decide (0 < t.tokens)
def Tok.canWrite (t : Tok) : Bool := t.valid && decide (t.tokens = 16)

/-! ### Reduction shadows (R64, R65) -/

/-- A list without its repeats of a number that stand side by side. -/
def runs : List Nat → List Nat
  | [] => []
  | x :: t => if t.head? = some x then runs t else x :: runs t

/-- R64: the operation's element width in bytes. -/
def Shadow.bytes (x : Shadow) : Nat := if x.bf16 then 2 else 1

/-- The number of the oldest operation that a shadow serves. -/
def Shadow.since (x : Shadow) : Nat := (leastBy id (x.parts.map Prod.snd)).getD 0

/-- R64: whether a shadow holds a sum of an operation of a group before a serial. -/
def Shadow.holds (x : Shadow) (uid upto : Nat) : Bool := x.parts.any fun p => decide (p.1 = uid ∧ p.2 < upto)

/-- R65: the elements, rounded to the storage format, as the bytes of their sector. -/
def Shadow.cells (x : Shadow) (sec : Nat) : List (Nat × Byte) :=
  let F := (floatFmt x.fmt.toNat).getD Sys2Proof.Machine.bf16
  (fromN (64 * sec) 64).zip (x.elems.flatMap fun e => toBytes x.bytes (F.rne false (fw e)))

/-- R65: a holder's shadow is rounded into the sector and discarded. An L2's enters its die's pending-write order, as the youngest write there; a
home atomic unit's, which has every token while it keeps one, merges. -/
def State.foldShadow (s : State) (h sec : Nat) : State :=
  match s.shadows.look (holderKey h sec) with
  | none => s
  | some x =>
    let t : State := { s with shadows := s.shadows.erase (holderKey h sec) }
    if h < 8 then
      let d := t.die h
      t.setDie h { d with pw := d.pw ++ [⟨x.since, x.cells sec, sec, x.ctx, x.core, 0, 0, x.page, x.parts, false⟩] }
    else if (s.tok h sec).canWrite then (t.mergeBytes (x.cells sec)).setTok h sec { s.tok h sec with dirty := true }
    else s

/-- R65: the shadows of some sectors are rounded at whichever holders have them. -/
def State.foldShadows (s : State) (secs : List Nat) : State :=
  if s.shadows.isEmpty then s else secs.foldl (fun s x => (holdersOf x).foldl (fun s h => s.foldShadow h x) s) s

/-! ### Messages (R308) -/

/-- The clk by which messages and requests age: the counter of die 0. -/
def State.now (s : State) : Nat := (s.die 0).clk

def blankMsg (k : MsgKind) (sec src dst : Nat) : Msg :=
  { msg := 0, kind := k, sector := sec, src := src, dst := dst, requester := src, write := false, attempt := 0, tokens := 0,
    owner := false, dirty := false, serial := 0, pos := 0, next := none, born := 0 }

/-- Injects a message. -/
def State.send (s : State) (m : Msg) : State :=
  { s with msgs := s.msgs ++ [{ m with msg := s.serial, born := s.now }], serial := s.serial + 1 }

/-- R316, R317: the home's record of a sector's persistent requests. -/
def State.persistOf (s : State) (sec : Nat) : Persist := SMap.get ({} : Persist) s.persists sec

/-! ### Writes of the module's own agents -/

/-- Tokens under the home's serial come to the home. -/
def State.homeTakes (s : State) (sec tokens : Nat) (owner : Bool) (serial : Nat) : State :=
  let r := s.tok (homeOf sec) sec
  if serial = r.serial then
    s.setTok (homeOf sec) sec { r with tokens := r.tokens + tokens, owner := r.owner || owner, valid := r.valid || owner }
  else s

/-- R318 step 2: while a batch runs the home gives its tokens to the activated requester; R322: not those of a residue whose parity fails. -/
def State.homeGives (s : State) (sec : Nat) : State :=
  let home := homeOf sec
  let t := s.tok home sec
  match (s.persistOf sec).active with
  | some a =>
    if t.tokens = 0 ∨ a = home ∨ (home = homeId ∧ (s.residues.get {} sec).parityOk = false) then s
    else (s.setTok home sec { t with tokens := 0, owner := false, valid := false }).send
      { blankMsg (if t.owner then .data else .tok) sec home a with requester := a, tokens := t.tokens, owner := t.owner, serial := t.serial }
  | none => s

/-- R305, R364: every token of a sector that a holder or a message has under the home's serial goes to the home, in one step: a write of the module's
own agents merges there, with all 16. Where a die or a home atomic unit has all 16 already the write merges at it. The agent's tokens go home
too, and the host's line becomes I (log 97). -/
def State.gather (s : State) (sec : Nat) : State :=
  let home := homeOf sec
  let others := (holdersOf sec).filter fun h => decide (h ≠ home) && decide ((s.tok h sec).tokens ≠ 0)
  match others.find? fun h => decide (h ≠ agentId) && (s.tok h sec).canWrite with
  | some h => s.setTok h sec { s.tok h sec with dirty := true }
  | none =>
    let s : State := if others.contains agentId then { s with hostLines := s.hostLines.set 0 sec 0 } else s
    let s := others.foldl (fun s h =>
      let t := s.tok h sec
      (s.setTok h sec { serial := t.serial }).homeTakes sec t.tokens t.owner t.serial) s
    let carries (m : Msg) : Bool := decide (m.sector = sec ∧ m.tokens ≠ 0)
    (s.msgs.filter carries).foldl (fun s m => s.homeTakes sec m.tokens m.owner m.serial) { s with msgs := s.msgs.filter fun m => !carries m }

/-- R305: the tokens of every sector that a list of bytes touches are gathered. -/
def State.gatherAll (s : State) (l : List (Nat × Byte)) : State :=
  if s.toks.isEmpty && s.msgs.isEmpty then s else (runs (l.map fun p => sectorOf p.1)).foldl State.gather s

/-- R318: after such a write the sectors' homes give their tokens on, where a batch runs. -/
def State.giveAll (s : State) (l : List (Nat × Byte)) : State :=
  if s.persists.isEmpty then s else (runs (l.map fun p => sectorOf p.1)).foldl State.homeGives s

/-- R305: a device-scope write of the module's own agents (walkers, distributor, hub, engines): shadows of its sectors are rounded (R65), the sectors'
tokens are gathered and it merges, in one step, after the pending writes of every die to those bytes. -/
def State.hwWrite (s : State) (l : List (Nat × Byte)) : State :=
  let s := s.foldShadows (runs (l.map fun p => sectorOf p.1))
  let s : State := { s with dies := s.dies.mapVals fun _ d =>
    if d.pw.isEmpty then d
    else { d with pw := d.pw.map fun w => { w with bytes := w.bytes.filter fun p => !(l.any fun q => q.1 = p.1) } } }
  (((s.gatherAll l).healSectors false l).mergeBytes l).giveAll l

def State.hwWriteN (s : State) (a n x : Nat) : State := s.hwWrite (cellsOf a n x)

/-! ### The quota record (R394) -/

/-- A field of a context's quota record: byte offset and bytes. -/
def State.quota (s : State) (x off n : Nat) : Nat := if (s.ctx x).live then s.rdM ((s.ctx x).quota + off) n else 0
def State.stackW (s : State) (x : Nat) : Nat := s.quota x 0x08 4
def State.stackB (s : State) (x : Nat) : Nat := s.quota x 0x60 8
def State.splitMode (s : State) (x : Nat) : Bool := decide (s.quota x 0x5D 1 % 2 = 1)

/-- R174: bytes of a group block, and where a group's block begins. -/
def State.blockSize (s : State) (x : Nat) : Nat := 3840 + 32 * s.stackW x
def State.blockBase (s : State) (x blk : Nat) : Nat := s.stackB x + blk * s.blockSize x
/-- R153: where the trap frame begins: 1152 bytes below the end of the 0x0A00 + 32·W + 1152 bytes. -/
def State.frameBase (s : State) (x blk : Nat) : Nat := s.blockBase x blk + 0x0A00 + 32 * s.stackW x

/-- R29: a split's spill record: reserved, age, reserved, frame, reserved, depth, pc, mask from the high end. -/
def Split.record (x : Split) : BitVec 128 :=
  BitVec.ofNat 20 0 ++ BitVec.ofNat 12 x.age ++ BitVec.ofNat 27 0 ++ BitVec.ofNat 5 x.frame ++ BitVec.ofNat 10 0 ++ BitVec.ofNat 5 x.depth
    ++ x.pc ++ x.mask

/-- R28: a byte of the two areas that hardware keeps at the start of the group's block: 32 records of 16 bytes, then 32 frames of 16 return
PCs. DESIGN CHOICE (log 18): the i-th record of the list stands at the i-th place. -/
def Group.areaByte (g : Group) (off : Nat) : Byte :=
  if off < 0x200 then
    match g.spill[off / 16]? with
    | some x => x.record.extractLsb' (8 * (off % 16)) 8
    | none => 0
  else (SMap.get 0 (g.frames.get [] ((off - 0x200) / 64)) ((off - 0x200) % 64 / 4)).extractLsb' (8 * (off % 4)) 8

/-- R28, R174: the bytes of a group's block as hardware holds them: its two areas, then the lanes' windows and the trap frame in memory. No
address of an instruction reaches the areas. -/
def State.blockByte (s : State) (c : Nat) (g : Group) (off : Nat) : Byte :=
  if off < 0x0A00 then g.areaByte off else s.dieView (dieOf c) (s.blockBase g.ctx g.block + off)

/-! ### Local stores (R342, R389, R391) -/

/-- R389: where a byte of a context's local store on a core is: in the core (none), or in the context's backing. Core offsets; a
context in split mode has one half in its backing. -/
def State.lsHome (s : State) (c ctx off : Nat) : Option Nat :=
  let k := s.core c
  if (SMap.get ({} : Half) k.halves (off / 2 ^ 20)).owner = some ctx then none
  else some (s.quota ctx 0x48 8 + c * 2 ^ 21 + (if s.splitMode ctx then off % 2 ^ 20 else off))

def State.lsGet (s : State) (c ctx off : Nat) : Byte :=
  match s.lsHome c ctx off with
  | none => (s.core c).ls.get 0 off
  | some a => s.merged a

/-- Writes bytes of a core's local store. -/
def Core.lsWrite (k : Core) (l : List (Nat × Byte)) : Core := { k with ls := l.foldl (fun m p => m.set 0 p.1 p.2) k.ls }

def State.lsPut (s : State) (c ctx : Nat) (l : List (Nat × Byte)) : State :=
  let near := l.filter fun p => (s.lsHome c ctx p.1).isNone
  let far := l.filterMap fun p => (s.lsHome c ctx p.1).map fun a => (a, p.2)
  let s := if near.isEmpty then s else s.setCore c ((s.core c).lsWrite near)
  if far.isEmpty then s else s.hwWrite far

/-- R435: requests that the module makes of the host over CXL.cache. -/
def State.askHost (s : State) (l : List (HostReq × Nat)) : State := { s with hostReqs := s.hostReqs ++ l }

/-! ### Error records (R458, R459) -/

/-- R459: the layout of a record. -/
def ErrorRec.word (r : ErrorRec) : Nat :=
  r.code.toNat + r.src % 2 ^ 4 * 2 ^ 8 + r.die % 2 ^ 3 * 2 ^ 12 + r.core % 2 ^ 4 * 2 ^ 15 + r.ctx % 2 ^ 6 * 2 ^ 19 + r.ctxv.toNat * 2 ^ 25
    + r.time % 2 ^ 48 * 2 ^ 32 + r.detail % 2 ^ 160 * 2 ^ 96

/-- R458, R459: posts an error record to the error ring, in the memory of the control processor; a full ring counts it in er.over. -/
def State.postError (s : State) (r : ErrorRec) : State :=
  let g := s.regs
  if (g.erTail - g.erHead).toNat = 2 ^ g.erSize then { s with regs := { g with erOver := g.erOver + 1 } }
  else
    let at_ := g.erBase.toNat + 32 * (g.erTail.toNat % 2 ^ g.erSize)
    let mem := (cellsOf at_ 32 r.word).foldl (fun m p => m.set 0 p.1 p.2) g.cpMem
    { s with regs := { g with cpMem := mem, erTail := g.erTail + 1 } }

end Sys2Proof.Machine
end

