-- ==== Sys2Proof/Machine/Trap.lean ====
section
/-! DEFINITION. Stop causes and the end of workgroups (R163, R170), taking a trap (R152 to R156), leaving a handler (R157), and how an
instruction finds the split or sequencer that issues it (R8, R89, R90). -/

namespace Sys2Proof.Machine

/-! ### The end of groups and workgroups -/

/-- R298, R459: the reports that a group's handler has left for Survey are posted. -/
def State.postReport (s : State) (c : Nat) (x : Group) : State :=
  x.report.foldl (fun s r =>
    s.postError ⟨r.1, 0, dieOf c, c % 12, x.ctx, true, s.clkOf c, r.2.1.toNat + r.2.2.toNat * 2 ^ 32⟩) s

/-- R298: the reports of a group's handler reach Survey. -/
def State.trapReport (s : State) (c g : Nat) : State :=
  match s.grp c g with
  | none => s
  | some x => (s.setGrp c g { x with report := [] }).postReport c x

/-- R174: the block becomes free; R199: a parked request of the group is withdrawn. R298: a report that is still to be posted is posted. -/
def State.releaseGroup (s : State) (c g : Nat) : State :=
  match s.grp c g with
  | none => s
  | some x =>
    let k := s.core c
    let s := s.setCore c { k with groups := k.groups.erase g }
    let s := s.setCtx x.ctx { s.ctx x.ctx with blocks := (s.ctx x.ctx).blocks.filter fun b => decide (b ≠ x.block) }
    let s := s.postReport c x
    { s with queues := s.queues.mapVals fun _ q => { q with pushers := q.pushers.filter fun p => decide (p.1 ≠ x.uid) } }

/-- The bytes that cells of a copy write to memory. -/
def copyMem (l : List CopyCell) : List (Nat × Byte) :=
  l.filterMap fun x => match x.dst with | .mem a => some (a, x.val) | _ => none

/-- Writes the bytes that cells of a copy write to local stores. -/
def State.copyLs (s : State) (o : CopyOp) (l : List CopyCell) : State :=
  let part (c : Nat) : List (Nat × Byte) := l.filterMap fun x => match x.dst with
    | .loc y a => if y = c then some (a, x.val) else none
    | _ => none
  ((l.filterMap fun x => match x.dst with | .loc c _ => some c | _ => none).eraseDups).foldl (fun s' c => s'.lsPut c o.ctx (part c)) s

/-- A free part of a copy's cells, and the state that has used the free values. -/
def State.someCells (s : State) (o : CopyOp) : List CopyCell × State :=
  ((o.cells.zipIdx.filter fun p => Config.moved (s.free + p.2)).map Prod.fst, { s with free := s.free + o.cells.length })

/-- R163 step 2, R393 step 3: drops the accepted copies that a test selects, in whichever engine they run; the writes in flight drain. -/
def State.abortCopies (s : State) (hit : CopyOp → Bool) : State :=
  let keep (l : List CopyOp) : List CopyOp := l.filter fun o => !hit o
  let gone := s.cores.flatMap fun p => (p.2.loadQ ++ p.2.storeQ).filter hit
  if gone.isEmpty then s
  else
    let s : State := { s with cores := s.cores.mapVals fun _ k => { k with loadQ := keep k.loadQ, storeQ := keep k.storeQ } }
    gone.foldl (fun s o =>
      let r := s.someCells o
      (r.2.copyLs o r.1).hwWrite (copyMem r.1)) s

/-- R32, R38: the tile entries of a workgroup's allocation, cleared. -/
def Core.clearTiles (k : Core) (w : Workgroup) : Core := { k with tiles := w.tiles.foldl (fun t e => t.erase e) k.tiles }

/-- R220: the matrix queue of a core, and the streams of its MLDBs alone. -/
def Core.setQueue (k : Core) (q : List MatrixOp) : Core :=
  { k with mqueue := q, streams := k.streams.filter fun p => q.any fun o => decide (o.op = p.1) }

/-- R163: a workgroup leaves its core: its groups, its engine operations, its sequencers, tile entries and arrivals go. -/
def State.dropWg (s : State) (c w : Nat) : State :=
  match s.wgOf c w with
  | none => s
  | some x =>
    let uids := ((s.core c).groupsOf w).map fun p => p.2.uid
    let s := ((s.core c).groupsOf w).foldl (fun s p => s.releaseGroup c p.1) s
    let s := s.abortCopies fun o => decide (o.core = c ∧ o.wg = w ∧ o.ctx = x.ctx)
    let k := s.core c
    let own (q : Sequencer) : Sequencer :=
      if (q.owner.map uids.contains).getD false || decide (q.wg = w ∧ q.ctx = x.ctx) then {} else q
    let s : State := { s with members := s.members.mapVals fun _ y =>
      if y.core = c ∧ y.issues.any (fun i => uids.contains i.uid) then { y with issues := [], tileOff := none } else y }
    let k := k.setQueue (k.mqueue.filter fun o => decide (¬ (o.wg = w ∧ o.ctx = x.ctx)))
    s.setCore c ({ k with
      wgs := k.wgs.erase w
      mseq := own k.mseq
      cseq := own k.cseq
      arrivals := k.arrivals.filter fun a => !uids.contains a.uid
        && !(decide (a.ctx = x.ctx) && decide (x.base ≤ a.offset) && decide (a.offset < x.base + 8 * x.bars)) }.clearTiles x)

/-- R371: a workgroup of a launch has ended, well or not; R163: the cause of the first failure is kept. -/
def Launch.wgEnded (l : Launch) (ok : Bool) (cause : BitVec 8) (now : Nat) : Launch :=
  { l with
    running := l.running - 1
    doneUpto := now
    ended := if ok then l.ended + 1 else l.ended
    outcome := if ok || decide (l.outcome ≠ 0) then l.outcome else 2
    cause := if ok || decide (l.outcome ≠ 0) then l.cause else cause }

/-- R197: a workgroup's trigger is complete. -/
def Launch.count (l : Launch) (uid : Nat) : Launch := { l with counted := if l.counted.contains uid then l.counted else l.counted ++ [uid] }

/-- R365: the gangs and the workgroups of a launch. -/
def LaunchRec.gangs (r : LaunchRec) : Nat := r.ext.foldl (· * ·) 1
def LaunchRec.wgs (r : LaunchRec) : Nat := r.gangs * r.gang

/-- R371: every write of a context before a serial is performed at device scope. -/
def State.ctxWritesDone (s : State) (x upto : Nat) : Bool :=
  !(s.ops.any fun p => decide (p.2.ctx = x ∧ p.2.op < upto)
      && (match p.2.kind with | .store _ _ | .atomic _ _ _ => p.2.lanes.any fun l => l.val.isNone | _ => false))
    && !(s.dies.any fun p => p.2.pw.any fun w => decide (w.ctx = x ∧ w.serial < upto))
    && !s.shadows.any fun p => decide (p.1 % 64 < 8 ∧ p.2.ctx = x ∧ p.2.since < upto)

/-- R369: the launches that waited for one whose trigger is complete; those with nothing left to wait for become ready. -/
def State.satisfy (s : State) (id : Nat) : State :=
  { s with launches := s.launches.mapVals fun _ l =>
      if l.holds.contains id then
        { l with holds := l.holds.filter fun x => decide (x ≠ id) }
      else l }

/-- R197, R369: whether every workgroup of a launch is placed and counted, the early policy in force. -/
def Launch.allCounted (l : Launch) : Bool :=
  !l.triggered && decide (l.record.tpol = 0) && decide (l.nextGang = l.record.gangs) && decide (l.counted.length = l.record.wgs)

/-- R197, R369: whether a launch's trigger is complete. -/
def State.triggerDue (s : State) (l : Launch) : Bool := l.allCounted && s.ctxWritesDone l.ctx l.relUpto

/-- R197, R369: marks a launch's trigger complete. -/
def State.checkTrigger (s : State) (id : Nat) : State :=
  match s.launches.look id with
  | none => s
  | some l =>
    if s.triggerDue l then ({ s with launches := s.launches.put id { l with triggered := true } }).satisfy id else s

/-- The workgroups of a gang on the cores, as core and slot. -/
def State.gangWgs (s : State) (gang : Nat) : List (Nat × Nat) :=
  s.cores.flatMap fun p => (p.2.wgs.filter fun w => w.2.gang = gang).map fun w => (p.1, w.1)

/-- Every saved image, changed. -/
def State.mapImages (s : State) (f : Image → Image) : State :=
  { s with
    cores := s.cores.mapVals fun _ k =>
      if k.slots.any fun p => p.2.image.isSome then
        { k with slots := k.slots.mapVals fun _ x => { x with image := x.image.map f } }
      else k
    backing := s.backing.map f }

/-- Every saved image. -/
def State.images (s : State) : List Image := (s.cores.flatMap fun p => p.2.slots.filterMap fun x => x.2.image) ++ s.backing

/-- R163, R371: a workgroup that fails is reported to its launch. -/
def State.reportFail (s : State) (w : Workgroup) (cause : BitVec 8) : State :=
  { s with
    launches := match s.launches.look w.launch with
      | some l => s.launches.put w.launch { (l.wgEnded false cause s.serial).count w.uid with relUpto := s.serial }
      | none => s.launches }

/-- R163: a saved workgroup leaves its image, and its groups' blocks become free. -/
def Image.dropWg (im : Image) (w : Nat) : Image :=
  let uids := (im.groups.filter fun p => p.2.wg = w).map fun p => p.2.uid
  let own (q : Sequencer) : Sequencer := if (q.owner.map uids.contains).getD false || decide (q.wg = w) then {} else q
  { im with
    wgs := im.wgs.erase w
    groups := im.groups.filter fun p => decide (p.2.wg ≠ w)
    mqueue := im.mqueue.filter fun o => decide (o.wg ≠ w)
    mseq := own im.mseq
    cseq := own im.cseq }

/-- The stack blocks of groups that are gone become free (R174). -/
def State.freeBlocks (s : State) (x : Nat) (l : List Nat) : State :=
  s.setCtx x { s.ctx x with blocks := (s.ctx x).blocks.filter fun b => !l.contains b }

/-- R163: ends the saved workgroups of a gang. R298: what their groups' handlers have still to report is posted. -/
def State.failSaved (s : State) (gang : Nat) (cause : BitVec 8) : State :=
  (s.images.flatMap fun im => (im.wgs.filter fun w => w.2.gang = gang).map fun w => (im, w)).foldl (fun s p =>
    let gs := p.1.groups.filter fun g => decide (g.2.wg = p.2.1)
    let s := (s.reportFail p.2.2 cause).freeBlocks p.1.ctx (gs.map fun g => g.2.block)
    let s := gs.foldl (fun s g => s.postReport p.1.core g.2) s
    let s := s.abortCopies fun o => decide (o.core = p.1.core ∧ o.wg = p.2.1 ∧ o.ctx = p.1.ctx)
    let cut (y : Member) : Member :=
      if y.issues.any (fun i => gs.any fun g => decide (g.2.uid = i.uid)) then { y with issues := [], tileOff := none } else y
    let s : State := { s with members := s.members.mapVals fun _ y => cut y }
    s.mapImages fun im => if im = p.1 then im.dropWg p.2.1 else im) s

/-- R163: ends every workgroup of a gang, and the launch is reported as failed. -/
def State.failGang (s : State) (gang : Nat) (cause : BitVec 8) : State :=
  let s := (s.gangWgs gang).foldl (fun s p =>
    match s.wgOf p.1 p.2 with
    | none => s
    | some w => (s.reportFail w cause).dropWg p.1 p.2) s
  let s := if (s.gangs.look gang).any (fun g => g.saved) then s.failSaved gang cause else s
  { s with gangs := s.gangs.erase gang }

/-- R170: a stop cause of a context on a core: ends every workgroup of the context that holds the core, with its gang, and posts an
error record for each core on which it does (R460), or for the core itself where no workgroup of the context runs there. -/
def State.stopCtx (s : State) (c x : Nat) (cause : BitVec 8) : State :=
  let gangs := ((s.core c).wgs.filter fun w => w.2.ctx = x).map fun w => w.2.gang
  let cs := (gangs.flatMap fun g => (s.gangWgs g).map Prod.fst).eraseDups
  let s := gangs.foldl (fun s g => s.failGang g cause) s
  (if cs.isEmpty then [c] else cs).foldl (fun s c => s.postError ⟨cause, 1, dieOf c, c % 12, x, true, s.clkOf c, 0⟩) s

/-- R170, R460: a stop cause of contexts on several cores: each is stopped where it still runs, so that a gang is stopped, and recorded, once. -/
def State.stopEach (l : List (Nat × Nat)) (cause : BitVec 8) (s : State) : State :=
  l.foldl (fun s p => if (s.core p.1).wgs.any fun w => w.2.ctx = p.2 then s.stopCtx p.1 p.2 cause else s) s

/-! ### Traps -/

/-- R68, R154, R383: where the supervisor region begins. -/
def supBase : Nat := 0x1E000

/-- The parcel at an index of a core's program store. -/
def Core.parcel (k : Core) (i : Nat) : Parcel := k.pstore.get 0 (i % 2 ^ 17)

/-- A signed 32-bit word of the program store, low parcel first (R85, R154), as an offset of the PC. -/
def Core.pcWord (k : Core) (i : Nat) : Int := ((k.parcel (i + 1)) ++ (k.parcel i)).toInt

/-- R69: a PC plus a signed number of parcels, in the 17 bits of the PC. -/
def addPc (pc : Pc) (off : Int) : Pc := BitVec.ofInt 17 ((pc.toNat : Int) + off)

/-- R154: the handler of a cause's class. -/
def Core.handler (k : Core) (cause : BitVec 8) : Pc :=
  BitVec.ofInt 17 ((supBase : Int) + k.pcWord (supBase + 2 * (cause.toNat / 32)))

/-- R153: the bytes that trap entry writes into the trap frame at `base`. -/
def Group.frameCells (g : Group) (base : Nat) : List (Nat × Byte) :=
  ((List.range 32).flatMap fun L => (List.range 8).flatMap fun k => cellsOf (base + 0x20 * L + 4 * k) 4 (g.vget k L).toNat)
    ++ ((List.range 8).flatMap fun k => cellsOf (base + 0x400 + 4 * k) 4 (g.pget k).toNat)
    ++ ((List.range 8).flatMap fun k => cellsOf (base + 0x420 + 4 * k) 4 (g.sget k).toNat)

/-- R20: the layout of `trapsplit`. -/
def trapsplitOf (mask : Mask) (pc : Pc) (done : Bool) (slot frame depth : Nat) : Dword :=
  (BitVec.ofNat 2 0 ++ BitVec.ofNat 5 depth ++ BitVec.ofNat 5 frame ++ BitVec.ofNat 2 slot ++ BitVec.ofBool done ++ pc ++ mask : BitVec 64)

/-- R152 steps 2 and 3: trap entry of a group whose pending count is 0. -/
def State.enterTrap (s : State) (c g : Nat) : State :=
  match s.grp c g with
  | none => s
  | some x =>
    match x.trapPend with
    | none => s
    | some t =>
      match x.slots.look t.slot with
      | none => s
      | some sp =>
        let s := s.hwWrite (x.frameCells (s.frameBase x.ctx x.block))
        s.setGrp c g { x with
          trapcause := t.cause
          trapmask := t.mask
          trapaddr := t.addrs.filter fun p => t.mask.getLsbD p.1
          trapsplit := trapsplitOf sp.mask t.pc t.done t.slot sp.frame sp.depth
          entryMask := sp.mask
          handlerSlot := t.slot
          entryFence := sp.afterFence
          trapPend := none
          sup := true
          slots := x.slots.put t.slot { pc := (s.core c).handler t.cause, mask := t.mask, frame := sp.frame } }

/-- R152, R156, R164: the split of a slot takes a cause in the lanes of a mask. `done` tells whether the instruction completed, and
`pc` where the split resumes. In supervisor mode the cause is a double trap. `tick` is false where the issue slot is already counted. -/
def State.raise (s : State) (c g slot : Nat) (cause : BitVec 8) (mask : Mask) (addrs : SMap Dword) (pc : Pc) (done : Bool)
    (tick : Bool := true) : State :=
  match s.grp c g with
  | none => s
  | some x =>
    if x.sup then s.stopCtx c x.ctx 0xEC
    else
      let x := (if tick then x.tick (some slot) else x).goto slot pc
      let s := s.setGrp c g { x with trapPend := some ⟨cause, mask, addrs, pc, done, slot⟩, park := .run }
      if x.pend.isEmpty then s.enterTrap c g else s

/-- R157: v0 to v7, p0 to p7 and s0 to s7 as the trap frame holds them. -/
def Group.restoreFrame (g : Group) (rd : Nat → Word) : Group :=
  let g := (List.range 32).foldl (fun g L => (List.range 8).foldl (fun g k => g.vset k L (rd (0x20 * L + 4 * k))) g) g
  let g := (List.range 8).foldl (fun g k => g.pset k (rd (0x400 + 4 * k))) g
  (List.range 8).foldl (fun g k => g.sset k (rd (0x420 + 4 * k))) g

/-- R157: leaves the handler. `exit` tells whether the lanes of `trapmask` exit (EXIT in supervisor mode); RFT passes false.
Every split that runs the handler ends. R298: where the image ends the lanes of a control-flow cause it has reported them to Survey (log 96). `m` is the marker of the instruction that leaves (R11), and R71 parks the group where `trapsplit.done` is 1. -/
def State.leaveHandler (s : State) (c g : Nat) (exit m : Bool) : State :=
  match s.grp c g with
  | none => s
  | some x =>
    let base := s.frameBase x.ctx x.block
    let d := dieOf c
    let x := x.restoreFrame fun o => BitVec.ofNat 32 (s.rdD d (base + o) 4)
    let ts := x.trapsplit
    let gone : Mask := if exit then x.trapmask &&& x.entryMask else 0
    let mask : Mask := ts.extractLsb' 0 32 &&& x.entryMask &&& ~~~ gone
    let done := ts.getLsbD 49
    let want := (ts.extractLsb' 50 2).toNat
    let slots : SMap Split := x.slots.filter fun p => !x.handles p.2
    let held := ((x.slots.find? fun p => x.handles p.2).map Prod.fst).getD x.handlerSlot
    let slot := if slots.keys.contains want then held else want
    let sp : Split :=
      { pc := ts.extractLsb' 32 17, mask := mask, frame := (ts.extractLsb' 52 5).toNat, depth := (ts.extractLsb' 57 5).toNat,
        afterFence := x.entryFence }
    let x : Group := { x with
      trigUpto := if x.entryMask &&& ~~~ mask &&& ~~~ x.triggered = 0 then x.trigUpto else s.serial
      sup := false
      trapcause := 0
      report := if exit && decide (0x20 ≤ x.trapcause ∧ x.trapcause ≤ 0x22) then x.report ++ [(x.trapcause, x.trapmask, ts)] else x.report
      spill := x.spill.filter fun r => !x.handles r
      exited := x.exited ||| (x.entryMask &&& ~~~ mask)
      slots := if mask = 0 then slots else slots.put slot sp }
    s.setGrp c g ((x.mark (done || m)).settle)

/-! ### Who issues -/

/-- The split that issues: its core, group slot and split slot, with the group and the split. -/
structure Iss where
  c : Nat
  g : Nat
  k : Nat
  gr : Group
  sp : Split
deriving Repr

def State.iss (s : State) (c g k : Nat) : Option Iss :=
  match s.grp c g with
  | none => none
  | some gr => match gr.slots.look k with
    | none => none
    | some sp => some ⟨c, g, k, gr, sp⟩

/-- A cause of the whole split at issue (R88): nothing has changed, and the PC is the instruction's. -/
def Iss.trap (I : Iss) (s : State) (cause : BitVec 8) : State := s.raise I.c I.g I.k cause I.sp.mask [] I.sp.pc false

/-- A cause at issue in some lanes (R20), with their addresses. -/
def Iss.trapLanes (I : Iss) (s : State) (cause : BitVec 8) (mask : Mask) (addrs : SMap Dword) : State :=
  s.raise I.c I.g I.k cause mask addrs I.sp.pc false

/-- The end of an instruction that changed nothing outside its group: the group as given, its PC `n` parcels on. -/
def Iss.done (I : Iss) (s : State) (gr : Group) (n : Nat) (m : Bool) : State :=
  s.setGrp I.c I.g (gr.retire I.k (I.sp.pc + BitVec.ofNat 17 n) m)

def Core.seqOf (k : Core) (copy : Bool) : Sequencer := if copy then k.cseq else k.mseq
def Core.setSeq (k : Core) (copy : Bool) (q : Sequencer) : Core := if copy then { k with cseq := q } else { k with mseq := q }

/-- R90, R254: a sequencer stops with a cause, and waits for nothing more; one that has stopped keeps its cause. -/
def Sequencer.stopWith (q : Sequencer) (cause : BitVec 8) : Sequencer :=
  if q.run = .stopped then q else { q with run := .stopped, cause := cause, wait := .none }

def State.seqStop (s : State) (c : Nat) (copy : Bool) (cause : BitVec 8) : State :=
  let k := s.core c
  let q := k.seqOf copy
  if q.run = .stopped then s else s.setCore c (k.setSeq copy (q.stopWith cause))

/-- An instruction of groups alone: R90 stops a sequencer that meets it. -/
def onSplit (s : State) (f : Iss → State) : Host.Outcome State Fault Refusal :=
  match s.cur with
  | some (.split c g k) => match s.iss c g k with
    | some I => .next (f I)
    | none => .fault .noIssuer
  | some (.seq c cp) => .next (s.seqStop c cp 0x08)
  | none => .fault .noIssuer

/-- An instruction that an engine program may contain. -/
def onBoth (s : State) (f : Iss → State) (h : Nat → Bool → State) : Host.Outcome State Fault Refusal :=
  match s.cur with
  | some (.split c g k) => match s.iss c g k with
    | some I => .next (f I)
    | none => .fault .noIssuer
  | some (.seq c cp) => .next (h c cp)
  | none => .fault .noIssuer

end Sys2Proof.Machine
end

