-- ==== Sys2Proof/Machine/Operands.lean ====
section
/-! DEFINITION. The operand forms of R75 to R77 and R104, the checks of operands at issue (R6, R10, R77, R88), and the shapes in which
lane instructions execute (R103): each reads its sources in every active lane before it writes any destination. -/

namespace Sys2Proof.Machine

/-- A register operand: its code and how many registers it names (1, 2 or 4). -/
abbrev Opd := Nat × Nat

/-- R76: the register code of a 6-bit address operand's pair. -/
def a6 (a : BitVec 6) : Nat := if a.toNat < 48 then 2 * a.toNat else 96 + 2 * (a.toNat - 48)

def opd (x : BitVec 7) : Opd := (x.toNat, 1)
def pairOpd (x : BitVec 7) : Opd := (x.toNat, 2)
def quadOpd (x : BitVec 7) : Opd := (x.toNat, 4)
def addrOpd (a : BitVec 6) : Opd := (a6 a, 2)
/-- R73: a register of the 16-bit form. -/
def opd5 (x : BitVec 5) : Opd := (x.toNat, 1)

/-- R77: the code of a pair is even, and that of a group of four a multiple of four. -/
def Opd.aligned (o : Opd) : Bool := decide (o.1 % o.2 = 0)
/-- R10 -/
def Opd.pending (g : Group) (o : Opd) : Bool := (fromN o.1 o.2).any fun r => g.pend.contains r
/-- R6: a v register at or above v(n), or a group of registers that extends past it. -/
def Opd.beyond (g : Group) (o : Opd) : Bool := decide (o.1 < 96) && decide (g.nregs < o.1 + o.2)

/-- R88: the decode causes that apply to the whole split, the lowest first: 0x02, and 0x05 for a supervisor-only instruction in user mode; then the
operands' causes 0x03 and 0x04, which are checked after them. -/
def Group.check (g : Group) (sup : Bool) (ops : List Opd) : Option (BitVec 8) :=
  if ops.any fun o => !o.aligned then some 0x02
  else if sup && !g.sup then some 0x05
  else if ops.any fun o => Opd.pending g o then some 0x03
  else if ops.any fun o => Opd.beyond g o then some 0x04
  else none

/-- R103: a lane instruction of `n` parcels over given operands, whose effect lies within its group. -/
def lane (n : Nat) (m : Bool) (ops : List Opd) (f : Group → Mask → Group) (s : State) : Host.Outcome State Fault Refusal :=
  onSplit s fun I =>
    match I.gr.check false ops with
    | some c => I.trap s c
    | none => I.done s (f I.gr I.sp.mask) n m

/-- R15, R40: `stat.sat` is set when some active lane clamped. -/
def Group.sticky (g : Group) (k : Mask) (f : Nat → Bool) : Group := { g with sat := g.sat || (lanes k).any fun L => f L }

/-- d := f a. -/
def lane1 (n : Nat) (m : Bool) (d a : Nat) (f : Word → Word) (s : State) : Host.Outcome State Fault Refusal :=
  lane n m [(d, 1), (a, 1)] (fun g k => g.wr d k fun L => f (g.rd a L)) s

/-- d := f a b. -/
def lane2 (n : Nat) (m : Bool) (d a b : Nat) (f : Word → Word → Word) (s : State) : Host.Outcome State Fault Refusal :=
  lane n m [(d, 1), (a, 1), (b, 1)] (fun g k => g.wr d k fun L => f (g.rd a L) (g.rd b L)) s

/-- d := f d a b. -/
def lane3 (m : Bool) (d a b : BitVec 7) (f : Word → Word → Word → Word) (s : State) : Host.Outcome State Fault Refusal :=
  lane 2 m [opd d, opd a, opd b]
    (fun g k => g.wr d.toNat k fun L => f (g.rd d.toNat L) (g.rd a.toNat L) (g.rd b.toNat L)) s

/-- d := f a with a clamp's report. -/
def lane1s (m : Bool) (d a : BitVec 7) (f : Word → Word × Bool) (s : State) : Host.Outcome State Fault Refusal :=
  lane 2 m [opd d, opd a]
    (fun g k => (g.wr d.toNat k fun L => (f (g.rd a.toNat L)).1).sticky k fun L => (f (g.rd a.toNat L)).2) s

/-- d := f a b with a clamp's report. -/
def lane2s (m : Bool) (d a b : BitVec 7) (f : Word → Word → Word × Bool) (s : State) : Host.Outcome State Fault Refusal :=
  lane 2 m [opd d, opd a, opd b]
    (fun g k => (g.wr d.toNat k fun L => (f (g.rd a.toNat L) (g.rd b.toNat L)).1).sticky k
      fun L => (f (g.rd a.toNat L) (g.rd b.toNat L)).2) s

/-- d := f d a b with a clamp's report. -/
def lane3s (m : Bool) (d a b : BitVec 7) (f : Word → Word → Word → Word × Bool) (s : State) : Host.Outcome State Fault Refusal :=
  lane 2 m [opd d, opd a, opd b]
    (fun g k =>
      (g.wr d.toNat k fun L => (f (g.rd d.toNat L) (g.rd a.toNat L) (g.rd b.toNat L)).1).sticky k
        fun L => (f (g.rd d.toNat L) (g.rd a.toNat L) (g.rd b.toNat L)).2) s

/-- A pair d := f a b, of words. -/
def laneW (m : Bool) (d a b : BitVec 7) (f : Word → Word → Dword) (s : State) : Host.Outcome State Fault Refusal :=
  lane 2 m [pairOpd d, opd a, opd b] (fun g k => g.wr64 d.toNat k fun L => f (g.rd a.toNat L) (g.rd b.toNat L)) s

/-- A pair d := f d a b. -/
def laneWAcc (m : Bool) (d a b : BitVec 7) (f : Dword → Word → Word → Dword) (s : State) : Host.Outcome State Fault Refusal :=
  lane 2 m [pairOpd d, opd a, opd b]
    (fun g k => g.wr64 d.toNat k fun L => f (g.rd64 d.toNat L) (g.rd a.toNat L) (g.rd b.toNat L)) s

/-- A pair d := f a b, of pairs. -/
def laneD (m : Bool) (d a b : BitVec 7) (f : Dword → Dword → Dword) (s : State) : Host.Outcome State Fault Refusal :=
  lane 2 m [pairOpd d, pairOpd a, pairOpd b] (fun g k => g.wr64 d.toNat k fun L => f (g.rd64 a.toNat L) (g.rd64 b.toNat L)) s

/-- A pair d := f a b, of a pair and a word. -/
def laneDW (m : Bool) (d a b : BitVec 7) (f : Dword → Word → Dword) (s : State) : Host.Outcome State Fault Refusal :=
  lane 2 m [pairOpd d, pairOpd a, opd b] (fun g k => g.wr64 d.toNat k fun L => f (g.rd64 a.toNat L) (g.rd b.toNat L)) s

/-- R118: a compare writes p[pd] in active lanes, combined as R82 says; comb 3 writes p[pd xor 1] too. -/
def Group.setPred (g : Group) (k : Mask) (pd : BitVec 3) (comb : BitVec 2) (f : Nat → Bool) : Group :=
  let r : Mask := (maskWhere f) &&& k
  let old := g.pget pd.toNat
  let new : Mask := match comb.toNat with
    | 1 => old &&& r
    | 2 => old ||| r
    | _ => r
  let g' := g.pset pd.toNat ((old &&& ~~~ k) ||| (new &&& k))
  if comb = 3 then
    let q := (pd ^^^ 1).toNat
    g'.pset q ((g.pget q &&& ~~~ k) ||| (~~~ r &&& k))
  else g'

/-- R133: the value of register `code` read in lane M by a cross-lane instruction: 0 from a v register of a lane outside the mask. -/
def Group.cross (g : Group) (k : Mask) (code M : Nat) : Word := if code < 96 && !k.getLsbD M then 0 else g.rd code M

end Sys2Proof.Machine
end

