-- ==== Sys2Proof/Machine/Issue.lean ====
section
/-! DEFINITION. Which split of a group issues next and which groups are ready (R27, R37, R381), the exchange of spill records
(R27), the work identifier (R22), elastic counts (R18, R379), the region of a program (R68) and the shared shape of an engine
instruction (R89, R90, R253). -/

namespace Sys2Proof.Machine

/-- The page number, VA[51:16], of a global address (R349, R354). -/
def pageOf (va : Nat) : Nat := va / 65536

/-- R349: whether a TLB entry maps a page of the context. -/
def TlbEntry.covers (e : TlbEntry) (ctx page : Nat) : Bool :=
  decide (e.ctx = ctx) && decide (page / 512 ^ (3 - e.lvl) = e.vpage / 512 ^ (3 - e.lvl))

/-- R353, R354: whether the core can answer for a page without waiting: a TLB entry, or the fault that a walk has ended with. -/
def State.pageKnown (s : State) (c ctx page : Nat) : Bool :=
  (s.core c).tlb.any (fun e => e.covers ctx page) || (s.die (dieOf c)).tlb.any (fun e => e.covers ctx page)
    || (s.core c).faults.any fun w => decide (w.ctx = ctx ∧ w.page = page)

/-- R354: whether a walk of a page runs or waits on a die. -/
def Die.walking (k : Die) (ctx page : Nat) : Bool :=
  k.walks.any (fun p => decide (p.2.ctx = ctx ∧ p.2.page = page)) || k.walkQueue.any fun w => decide (w.ctx = ctx ∧ w.page = page)

/-- R354: a split that waits for walks can issue when every page is known, or when a page's walk has yet to find room in the queue. -/
def State.walksOver (s : State) (c ctx : Nat) (pages : List Nat) : Bool :=
  let k := s.die (dieOf c)
  pages.all (fun p => s.pageKnown c ctx p)
    || (decide (k.walkQueue.length < 256) && pages.any fun p => !s.pageKnown c ctx p && !k.walking ctx p)

/-- R27: whether a split that waits can issue now. A wait for an engine queue ends by the queue's own step, and the waits of an
instruction already issued by theirs. -/
def State.waitOver (s : State) (c : Nat) (g : Group) (sp : Split) : Bool :=
  match sp.wait with
  | .none => true
  | .tile e => let t := (s.core c).tiles.get {} e; !t.valid || decide (t.state = .ready)
  | .fill e => let t := (s.core c).tiles.get {} e; !t.valid || decide (t.state = .empty ∨ t.state = .filling)
  | .walk pages => s.walksOver c g.ctx pages
  | .acquire => sp.acq.isEmpty
  | _ => false

/-- R27, R37: whether a split in a slot can issue. -/
def State.splitReady (s : State) (c : Nat) (g : Group) (sp : Split) : Bool :=
  (!g.sup || g.handles sp) && s.waitOver c g sp

/-- R27: the slot that issues. -/
def State.chooseSlot (s : State) (c : Nat) (g : Group) : Option Nat :=
  let r := g.slots.filter fun p => s.splitReady c g p.2
  let old := r.filter fun p => decide (2048 ≤ p.2.age)
  (if old.isEmpty then leastBy (fun p : Nat × Split => p.2.pc.toNat) r
   else leastBy (fun p : Nat × Split => (4095 - p.2.age) * 2 ^ 17 + p.2.pc.toNat) old).map Prod.fst

/-- R381: whether a group is ready: not parked, no trap to enter, and one of its splits can issue. -/
def State.groupReady (s : State) (c : Nat) (g : Group) : Bool :=
  decide (g.park = .run) && g.trapPend.isNone && !(s.core c).halted && !(s.core c).gated && (s.chooseSlot c g).isSome

/-- R27: the record to bring in and the slot to send out, where an exchange is due. A split that runs the handler leaves its slot only for
another that does (R37). -/
def Group.exchangeDue (g : Group) : Option (Split × Nat × Split) :=
  match leastBy (fun r : Split => ((4095 - r.age) * 2 ^ 17 + r.pc.toNat) * 32 + lowest r.mask)
      (g.spill.filter fun r => decide (2048 ≤ r.age)) with
  | none => none
  | some r =>
    match leastBy (fun p : Nat × Split => (2 ^ 17 - p.2.pc.toNat) * 4 + (3 - p.1))
        (g.slots.filter fun p => !p.2.fresh && (!g.handles p.2 || g.handles r)) with
    | some (i, x) => some (r, i, x)
    | none => none

/-- R27: one exchange; it uses four issue slots. -/
def Group.exchange (g : Group) : Group :=
  match g.exchangeDue with
  | some (r, i, x) =>
    { g with
      slots := g.slots.put i { r with fresh := true }
      spill := (g.spill.filter fun y => decide (y ≠ r)) ++ [x]
      stall := g.stall + 4 }.settle
  | none => g

/-- R151: a YIELD's noted set loses a group that issues and those that are no longer ready. -/
def State.yieldUpdate (s : State) (c : Nat) (uid : Option Nat) : State :=
  let k := s.core c
  if k.groups.any fun p => match p.2.park with | .yield _ _ => true | _ => false then
    s.setCore c { k with groups := k.groups.mapVals fun _ g =>
      match g.park with
      | .yield noted t =>
        { g with park := .yield (noted.filter fun u => decide (some u ≠ uid)
            && k.groups.any fun q => decide (q.2.uid = u) && s.groupReady c q.2) t }
      | _ => g }
  else s

/-! ### Groups of a workgroup (R18, R22, R379) -/

/-- R18: the number of groups now in a workgroup. -/
def State.wgSize (s : State) (c w : Nat) : Nat := ((s.core c).groupsOf w).length

/-- R22: the work identifier of a lane: fields 0 to 5 at their widths. -/
def Workgroup.wid (w : Workgroup) (gid L : Nat) : Dword :=
  let vals := L :: gid :: w.rank :: w.coords
  BitVec.ofNat 64 (((w.widths.zip vals).foldl (fun r p => (r.1 + (p.2 % 2 ^ p.1) * 2 ^ r.2, r.2 + p.1)) (0, 0)).1)

/-- R6, R381, R394: how many further groups of `n` registers a context can hold on a core, with groups, register bytes and stack blocks
set aside. -/
def State.roomLess (s : State) (c ctx n groups bytes blocks : Nat) : Nat :=
  let k := s.core c
  let file := (k.groups.map fun p => p.2.nregs * 128).foldl (· + ·) 0
  let mine := (k.groups.filter fun p => p.2.ctx = ctx).length
  min (min (48 - k.groups.length - groups) ((576 * 1024 - file - bytes) / (n * 128)))
    (min (s.quota ctx 0x5E 2 - mine - groups) ((s.ctx ctx).stackn - (s.ctx ctx).blocks.length - blocks))

def State.roomFor (s : State) (c ctx n : Nat) : Nat := s.roomLess c ctx n 0 0 0

/-- R379: the groups, register bytes and stack blocks set aside for a gang about to be placed, as a context meets them on a core. -/
def State.setAside (s : State) (c ctx : Nat) : Nat × Nat × Nat :=
  match s.placing with
  | none => (0, 0, 0)
  | some p => match p.gang, s.launches.look p.launch with
    | none, some l =>
      let r := l.record
      let here := p.cores.contains c && decide (l.ctx = ctx)
      (if here then r.emin else 0, if here then r.emin * r.regs * 1024 else 0, if l.ctx = ctx then p.cores.length * r.emin else 0)
    | _, _ => (0, 0, 0)

/-- R379: `attach.free`. -/
def State.attachFree (s : State) (c w : Nat) : Nat :=
  match s.wgOf c w with
  | none => 0
  | some x =>
    let a := s.setAside c x.ctx
    if x.shrinkReq then 0 else min (x.emax - s.wgSize c w) (s.roomLess c x.ctx x.nregs a.1 a.2.1 a.2.2)

/-- R68: the parcels that a group may fetch, as a half-open range. -/
def State.region (s : State) (c : Nat) (g : Group) : Nat × Nat :=
  if g.sup then (supBase, supBase + 8192)
  else match s.wgOf c g.wg with
    | some w => (w.rbase, w.rbase + w.rlen)
    | none => (0, 0)

/-- Whether `n` parcels from `pc` on lie in a region. -/
def inRegion (r : Nat × Nat) (pc n : Nat) : Bool := decide (r.1 ≤ pc) && decide (pc + n ≤ r.2)

/-! ### Engine instructions (R89, R90, R253) -/

/-- R89: the value of a sequencer's own register, by its code 96 to 111. -/
def Sequencer.rd (q : Sequencer) (code : Nat) : Word := q.sregs.get 0 (code - 96)
def Sequencer.rd64 (q : Sequencer) (code : Nat) : Dword := q.rd (code + 1) ++ q.rd code
def Sequencer.wr (q : Sequencer) (code : Nat) (x : Word) : Sequencer := { q with sregs := q.sregs.set 0 (code - 96) x }
/-- The next instruction. -/
def Sequencer.next (q : Sequencer) : Sequencer := { q with pc := q.pc + 2, wait := .none }

def State.setSeq (s : State) (c : Nat) (cp : Bool) (q : Sequencer) : State := s.setCore c ((s.core c).setSeq cp q)

/-- R90: the operand and marker rules of an engine instruction; the lowest code wins. -/
def seqRun (s : State) (c : Nat) (cp m : Bool) (ops : List Opd) (f : Sequencer → State) : State :=
  if ops.any fun o => !o.aligned then s.seqStop c cp 0x02
  else if m || ops.any fun o => !(decide (96 ≤ o.1) && decide (o.1 + o.2 ≤ 112)) then s.seqStop c cp 0x08
  else f ((s.core c).seqOf cp)

/-- R253: the core slot of the workgroup whose tiles, accumulators and barrier words a sequencer names. -/
def State.seqWg (s : State) (c : Nat) (cp : Bool) : Nat := ((s.core c).seqOf cp).wg

end Sys2Proof.Machine
end

