-- ==== Sys2Proof/Machine/Token.lean ====
section
/-! DEFINITION. Token coherence beneath the memory model (R304 to R325): where a sector is homed (R338), the tokens of its holders
(R305 to R307), messages in flight (R308), misses and their attempts (R311 to R316), pending writes and their merge (R314), reduction
shadows (R64, R65) and the batches of persistent requests (R316 to R319). -/

namespace Sys2Proof.Machine

/-! ### Homes (R304, R337, R338) -/

/-- R344: the L2 slice of a sector. -/
def sliceOf (sec : Nat) : Nat :=
  let a := sec * 64
  (a / 256 % 16) ^^^ (a / 4096 % 16) ^^^ (a / 65536 % 16) ^^^ (a / 1048576 % 16)

/-! ### Pending writes (R277, R314) -/

/-- R314: with all 16 tokens and valid data, a die's pending writes to a sector merge, in their order. -/
def State.mergeSector (s : State) (d sec : Nat) : State :=
  let t := s.tok d sec
  let k := s.die d
  let mine := k.pw.filter fun w => w.sector = sec
  if t.canWrite && !mine.isEmpty then
    let s := s.setDie d { k with pw := k.pw.filter fun w => decide (w.sector ≠ sec) }
    let s := mine.foldl (fun s w => (s.healSectors w.plain w.bytes).mergeBytes w.bytes) s
    s.setTok d sec { t with dirty := true }
  else s

/-! ### Messages (R308) -/

/-- R308: the virtual channel of a message. -/
def MsgKind.vc : MsgKind → Nat
  | .gets | .getx | .preq | .done => 0
  | .act | .deact | .recr | .binv => 1
  | .nack | .tok | .rack => 2
  | .data | .wb => 3

/-- R65, R314: a holder's shadow is rounded, and where an L2 has every token the sector's pending writes merge, the rounded values last. -/
def State.roundShadow (s : State) (h sec : Nat) : State :=
  if (s.shadows.look (holderKey h sec)).isNone then s
  else if h < 8 then (s.foldShadow h sec).mergeSector h sec
  else s.foldShadow h sec

/-- R305, R308: a holder sends some of its tokens: DATA when the owner token or data goes with them, TOK otherwise. Its shadow of the sector is rounded
first (R65), and a die that has all 16 merges its pending writes (R314). -/
def State.sendTokens (s : State) (src dst sec n : Nat) (owner data : Bool) : State :=
  let s := s.roundShadow src sec
  let s := if src < 8 then s.mergeSector src sec else s
  let t := s.tok src sec
  let left := t.tokens - n
  let t' : Tok := { t with
    tokens := left
    owner := t.owner && !owner
    valid := t.valid && decide (0 < left)
    dirty := t.dirty && !owner && decide (0 < left) }
  let s := s.setTok src sec t'
  s.send { blankMsg (if owner || data then .data else .tok) sec src dst with
    requester := dst, tokens := n, owner := owner, dirty := t.dirty && owner, serial := t.serial }

/-- R312, R318: a holder sends every token it has, with data when the owner is among them. -/
def State.sendAll (s : State) (src dst sec : Nat) : State :=
  let t := s.tok src sec
  if t.tokens = 0 then s else s.sendTokens src dst sec t.tokens t.owner t.owner

/-! ### Misses (R311 to R316) -/

/-- R311: the destinations of a first attempt: the predicted set and the home, the requester left out. DESIGN CHOICE (log 114): a 4 KiB region of a home
group spans three base dies; of the home atomic units in its set only a sector's own is asked. -/
def State.predicted (s : State) (h sec : Nat) : List Nat :=
  let region := sec / 64
  let set := ((s.die h).predictor.find? fun p => p.1 = region).map Prod.snd |>.getD []
  let dst := if set.contains (homeOf sec) then set else set ++ [homeOf sec]
  dst.filter fun x => decide (x ≠ h) && (holdersOf sec).contains x

/-- Sends GETS or GETX of a miss to destinations. -/
def State.request (s : State) (m : Miss) (dst : List Nat) : State :=
  dst.foldl (fun s x => s.send { blankMsg (if m.write then .getx else .gets) m.sector m.holder x with
    write := m.write, attempt := m.attempt, serial := (s.tok m.holder m.sector).serial }) s

/-- The outstanding miss of a holder on a sector. -/
def State.missOf (s : State) (h sec : Nat) : Option (Nat × Miss) :=
  s.misses.find? fun p => decide (p.2.holder = h ∧ p.2.sector = sec)

/-- R311: a die's entry for a region becomes the most recently used. -/
def Die.usePredictor (d : Die) (region : Nat) : Die :=
  { d with predictor := (d.predictor.filter fun p => decide (p.1 = region)) ++ d.predictor.filter fun p => decide (p.1 ≠ region) }

/-- R311: a miss's first attempt, which uses its die's predictor. -/
def State.firstAttempt (s : State) (m : Miss) : State :=
  let dst := s.predicted m.holder m.sector
  (if m.holder < 8 then s.setDie m.holder ((s.die m.holder).usePredictor (m.sector / 64)) else s).request m dst

/-- R313, R314: allocates a miss and issues its first attempt; a miss outstanding that serves the need is joined, and a read's becomes
a write's. -/
def State.allocMiss (s : State) (h sec : Nat) (write : Bool) (core ctx : Nat) : State :=
  match s.missOf h sec with
  | some (id, m) =>
    if write && !m.write then
      let m := { m with write := true, attempt := 1, started := s.now, refused := [] }
      ({ s with misses := s.misses.put id m }).firstAttempt m
    else s
  | none =>
    let m : Miss := ⟨s.serial, h, sec, write, 1, s.now, core, ctx, [], [], false⟩
    ({ s with misses := s.misses.put m.miss m, serial := s.serial + 1 }).firstAttempt m

/-! ### Met misses (R311, R313) -/

/-- R313: whether a miss's need is met, whatever attempt is running. -/
def State.needMet (s : State) (m : Miss) : Bool :=
  let t := s.tok m.holder m.sector
  if m.write then t.canWrite else t.canRead

/-- R311: a die's predictor entry is replaced by the set that sent tokens; 2048 entries, the least recently used goes. -/
def Die.learn (d : Die) (region : Nat) (set : List Nat) : Die :=
  { d with predictor := (((region, set) :: d.predictor.filter fun p => decide (p.1 ≠ region)).take 2048) }

/-- R313: the home keeps the sector that it read until no miss on it and no persistent request for it is left. -/
def State.forgetRead (s : State) (sec : Nat) : State :=
  let p := s.persistOf sec
  if s.misses.any (fun q => decide (q.2.sector = sec)) || !p.recorded.isEmpty || !p.batch.isEmpty
      || s.msgs.any (fun m => decide (m.sector = sec ∧ m.kind = .preq)) then s
  else { s with homeReads := s.homeReads.erase sec }

/-- R313: whether an answer to a request of a holder is still to come: the request, or the answer, is on its way, or a holder waits with it. -/
def State.answerDue (s : State) (h sec : Nat) : Bool :=
  s.msgs.any (fun m => decide (m.sector = sec)
      && (match m.kind with
          | .gets | .getx => decide (m.src = h)
          | .nack | .tok | .data => decide (m.dst = h)
          | _ => false))
    || (s.homeAnswers ++ s.agentAnswers).any fun m => decide (m.sector = sec ∧ m.src = h ∧ (m.kind = .gets ∨ m.kind = .getx))

/-- R311, R313: a miss whose need is met ends. -/
def State.endMiss (s : State) (id : Nat) : State :=
  match s.misses.look id with
  | none => s
  | some m =>
    let s : State := { s with misses := s.misses.erase id }
    let s := if m.holder < 8 then
        s.setDie m.holder ((s.die m.holder).learn (m.sector / 64) (m.answered.filter fun x => x ≠ homeId)) else s
    s.forgetRead m.sector

/-! ### Persistent requests (R316 to R319) -/

/-- R319: whether position `a` is later than `b`, modulo 256. -/
def laterPos (a b : Nat) : Bool := decide ((a + 256 - b) % 256 < 128) && decide (a ≠ b)

/-- R318 steps 1 and 5: the home broadcasts an ACT for the batch's current requester, and gives it the residue's tokens; R322: not those of a residue
whose parity fails. -/
def State.activate (s : State) (sec : Nat) : State :=
  let p := s.persistOf sec
  match p.batch with
  | [] => s
  | a :: rest =>
    let pos := (p.pos + 1) % 256
    let s : State := { s with persists := s.persists.put sec { p with active := some a, pos := pos, actClk := s.now } }
    ((holdersOf sec).filter fun h => decide (h ≠ homeId) && !s.regs.holderMask.contains h).foldl
      (fun s h => s.send { blankMsg .act sec (homeOf sec) h with requester := a, pos := pos, next := rest.head? })
      (if homeOf sec = homeId ∧ (s.residues.get {} sec).parityOk = true then s.sendAll homeId a sec else s)

/-- Inserts in ascending order. -/
def insertAsc (x : Nat) : List Nat → List Nat
  | [] => [x]
  | y :: t => if x < y then x :: y :: t else if x = y then y :: t else y :: insertAsc x t

/-- R317: forms a batch from every recorded request, by ascending requester, when none runs and no further request of the sector is on its
way (log 98). -/
def State.formBatch (s : State) (sec : Nat) : State :=
  let p := s.persistOf sec
  if p.batch.isEmpty && !p.recorded.isEmpty && !(s.msgs.any fun m => decide (m.sector = sec ∧ m.kind = .preq)) then
    let b := p.recorded.foldl (fun l r => insertAsc r.1 l) []
    ({ s with persists := s.persists.put sec { p with recorded := [], batch := b, served := [] } }).activate sec
  else s

/-- R328, R329: the port agent may hand tokens on only once the host has given up a line of device memory, or has granted RdOwn for one of its own. -/
def State.handHeld (s : State) (h sec : Nat) (a : Act) : Bool :=
  decide (h = agentId) && a.next.isSome && (if isHostSec sec then decide (s.hostLines.get 0 sec < 2) else decide (s.hostLines.get 0 sec ≠ 0))

/-- The ACT with which the port agent waits for the host's answer. -/
def State.actHeld (s : State) (sec : Nat) : Bool := s.agentAnswers.any fun m => decide (m.sector = sec ∧ m.kind = .act)

/-- R318 steps 3 and 4: the activated requester, holding 16 tokens, hands them to the next and sends DONE, once; its ACT stands until it is
withdrawn or another takes its place (R319). The port agent obtains the host's answer first. -/
def State.handOn (s : State) (h sec : Nat) : State :=
  match s.acts.look (holderKey h sec) with
  | some a =>
    if a.requester = h ∧ a.finished = false ∧ (s.tok h sec).canWrite then
      if s.handHeld h sec a then
        if s.actHeld sec then s
        else { s with agentAnswers := s.agentAnswers ++ [{ blankMsg .act sec homeId agentId with requester := h, pos := a.pos, next := a.next, born := s.now }] }
      else
      let s : State := { s with acts := s.acts.put (holderKey h sec) { a with finished := true } }
      let s := if h < 8 then s.setDie h { s.die h with served := (s.die h).served.put sec s.now } else s
      let s := match a.next with
        | some b => s.sendAll h b sec
        | none => s
      s.send { blankMsg .done sec h (homeOf sec) with pos := a.pos }
    else s
  | none => s

/-- R318: whether a holder gives tokens on that reach it from another: not the requester that is activated, and not the next one, which keeps
what the activated requester hands to it. -/
def Act.givesOn (a : Act) (h src : Nat) : Bool := decide (a.requester ≠ h) && !(decide (a.requester = src) && decide (a.next = some h))

/-- R310, R313, R318: tokens arrive at a holder. A stale serial is dropped; under an ACT for another requester they go on to it, at the port agent once
the host has answered (R328), at the home unless its residue's parity fails (R322). -/
def State.absorb (s : State) (h : Nat) (m : Msg) : State :=
  let t := s.tok h m.sector
  if m.serial ≠ t.serial then s
  else
    let data := decide (m.kind ≠ .tok)
    let s := s.setTok h m.sector { t with
      tokens := t.tokens + m.tokens
      owner := t.owner || m.owner
      valid := t.valid || data
      dirty := t.dirty || m.dirty }
    let s := match s.missOf h m.sector with
      | some (id, x) => { s with misses := s.misses.put id { x with answered := insertAsc m.src x.answered } }
      | none => s
    if h = homeId then
      match (s.persistOf m.sector).active with
      | some a => if (SMap.get ({} : Residue) s.residues m.sector).parityOk then s.sendAll h a m.sector else s
      | none => s
    else match s.acts.look (holderKey h m.sector) with
      | some a => if a.givesOn h m.src && !(decide (h = agentId) && s.actHeld m.sector) then s.sendAll h a.requester m.sector else s
      | none => s

/-- R321: whether a recreation of a sector may start now, or is held for 5200 clk after the last (R323). -/
def State.recreateHeld (s : State) (sec : Nat) : Bool :=
  match s.lastRecreate.look sec with
  | some t => decide (s.now < t + 5200)
  | none => false

/-- R321 step 1, R322, R329: the home broadcasts RECR with the new serial to every holder not marked isolated. The port agent is the home of a
sector of host memory. -/
def State.recreate (s : State) (sec : Nat) (parityBad : Bool) : State :=
  if s.recreateHeld sec then { s with recrHeld := if s.recrHeld.contains sec then s.recrHeld else s.recrHeld ++ [sec] }
  else
    let home := homeOf sec
    let t := s.tok home sec
    let serial := (t.serial + 1) % 16
    let dst := (holdersOf sec).filter fun h => decide (h ≠ home) && !s.regs.holderMask.contains h
    let s : State := { s with
      recreates := s.recreates.put sec ⟨serial, dst, [], t.owner && !parityBad, parityBad, false⟩
      lastRecreate := s.lastRecreate.put sec s.now
      recrHeld := s.recrHeld.filter fun x => decide (x ≠ sec) }
    let s : State := if home = homeId then { s with residues := s.residues.put sec ⟨0, false, serial, true⟩ } else s.setTok home sec { serial := serial }
    dst.foldl (fun s h => s.send { blankMsg .recr sec home h with serial := serial }) s

end Sys2Proof.Machine
end

