-- ==== Sys2Proof/Machine/Translate.lean ====
section
/-! DEFINITION. Generic addresses and their apertures (R171 to R175), placement (R336, R337), page tables and walks (R349 to R352,
R354), TLBs (R353), owner tags (R362), publish-window pages (R439) and access counters (R358, R359). -/

namespace Sys2Proof.Machine

/-! ### Placement (R336, R337, R351) -/

/-- R351: the physical home group that the Gazetteer gives for a logical one. -/
def State.physGroup (s : State) (h : Nat) : Nat := (s.regs.gazetteer.look h).getD h

/-- R337: the DPA of an offset of a placement space. -/
def State.dpaOf (s : State) (spread : Bool) (hg off : Nat) : Nat :=
  if spread then 8 * 2 ^ 44 + off else s.physGroup hg * 2 ^ 44 + off

/-- R336: the size of a placement space. -/
def State.spaceSize (s : State) (spread : Bool) : Nat :=
  if spread then 24 * s.regs.q * 2 ^ 30 else 3 * (64 - s.regs.q) * 2 ^ 30

/-! ### Page-table entries (R350) -/

def leafBit (e : Nat) (i : Nat) : Bool := decide (e / 2 ^ i % 2 = 1)
def leafHgroup (e : Nat) : Nat := e / 2 ^ 10 % 8
def leafTarget (e : Nat) : Nat := (e / 2 ^ 24 % 2 ^ 36) * 4096
def leafFmt (e : Nat) : Nat := e / 2 ^ 15 % 16
def leafGeom (e : Nat) : Nat := e / 2 ^ 19 % 8
def leafClass (e : Nat) : Nat := e / 2 ^ 13 % 4

/-- R349: bytes that a leaf of a level maps. -/
def pageBytes (lvl : Nat) : Nat := 2 ^ (16 + 9 * (3 - lvl))

/-- R351: malformed entries. -/
def State.malformed (s : State) (e lvl : Nat) : Bool :=
  let leaf := leafBit e 1
  let t := leafTarget e
  let spread := leafBit e 9
  decide (e / 2 ^ 22 % 4 ≠ 0) || decide (e / 2 ^ 60 ≠ 0)
    || (if leaf then
          decide (lvl = 0) || decide (t % pageBytes lvl ≠ 0)
            || (!leafBit e 7 && (decide (s.spaceSize spread < t + pageBytes lvl) || decide (2 ^ 44 ≤ t)))
        else
          decide (lvl = 3) || decide (e / 4 % 128 ≠ 0) || decide (e / 2 ^ 13 % 2 ^ 9 ≠ 0) || decide (2 ^ 44 ≤ t)
            || decide (s.spaceSize spread < t + 4096))
    || (spread && decide (s.regs.q = 0))

/-- R362: a frame's tag names the context, with at least the given region size. -/
def State.tagNames (s : State) (dpa ctx size : Nat) : Bool :=
  let t := (s.tags.get 0 (dpa / 65536)).toNat
  decide (t % 64 = ctx) && decide (t / 64 % 2 = 1) && decide (size ≤ t / 128)

/-- R339: whether a run of bytes cannot be corrected. -/
def State.anyBad (s : State) (pas : List Nat) : Bool := !s.badSectors.isEmpty && pas.any fun a => s.badSectors.contains (sectorOf a)

/-- R322: whether a run holds poisoned data. -/
def State.anyPoison (s : State) (pas : List Nat) : Bool := !s.poisoned.isEmpty && pas.any fun a => s.poisoned.contains (sectorOf a)

/-- R339: whether an array's words that hold a run of bytes cannot be corrected: 0 the local store of a core, 1 its L1, 2 the L2 of a die. -/
def State.sramBad (s : State) (array unit_ : Nat) (pas : List Nat) : Bool :=
  !s.badSram.isEmpty && pas.any fun a => s.badSram.contains (array, unit_, a / 4)

/-- R339, R389: whether bytes of a context's local store on a core cannot be corrected, in the bank or in the context's backing. -/
def State.locBad (s : State) (c ctx : Nat) (offs : List Nat) : Bool :=
  (s.sramBad 0 c offs && offs.any fun a => (s.lsHome c ctx a).isNone)
    || (!s.badSectors.isEmpty && offs.any fun a => ((s.lsHome c ctx a).map fun p => s.anyBad [p]).getD false)

/-- Where a walk ends: a fault kind, or the level, the leaf and its address. -/
inductive WalkEnd where
  | fault (kind : Nat)
  | leaf (lvl e pa : Nat)
deriving DecidableEq, Repr

/-- R349, R351: the walk of a page from a table, with the addresses of the entries read. R339: an entry that cannot be corrected, in memory or in the
L2 of the die that walks, ends it with kind 7. -/
def State.walkFrom (s : State) (die : Option Nat) (ctx page : Nat) : Nat → Nat → Nat → List Nat → WalkEnd × List Nat
  | 0, _, _, seen => (.fault 0, seen)
  | n + 1, lvl, table, seen =>
    let pa := table + 8 * (page / 512 ^ (3 - lvl) % 512)
    let e := s.rdM pa 8
    let seen := pa :: seen
    if s.anyBad [pa] || die.any fun d => s.sramBad 2 d [pa, pa + 4] then (.fault 7, seen)
    else if !leafBit e 0 || s.malformed e lvl then (.fault 0, seen)
    else if leafBit e 1 then
      if !leafBit e 7 && !s.tagNames (s.dpaOf (leafBit e 9) (leafHgroup e) (leafTarget e)) ctx (3 - lvl) then (.fault 1, seen)
      else (.leaf lvl e pa, seen)
    else
      let t := s.dpaOf (leafBit e 9) (leafHgroup e) (leafTarget e)
      if s.tagNames t ctx 0 then s.walkFrom die ctx page n (lvl + 1) t seen else (.fault 1, seen)

/-- R349, R351: the walk of a page of a context, by a walker of a die or by another agent; a root of 0 is an entry with valid = 0. -/
def State.walkBy (s : State) (die : Option Nat) (ctx page : Nat) : WalkEnd × List Nat :=
  let r := s.quota ctx 0 8
  if !leafBit r 0 || leafBit r 1 || s.malformed r 0 then (.fault 0, [])
  else
    let t := s.dpaOf (leafBit r 9) (leafHgroup r) (leafTarget r)
    if s.tagNames t ctx 0 then s.walkFrom die ctx page 4 0 t [] else (.fault 1, [])

def State.walk (s : State) (ctx page : Nat) : WalkEnd × List Nat := s.walkBy none ctx page

/-- R65: the shadows of the sectors that a walk reads are rounded, level by level. -/
def State.roundWalk (s : State) (ctx page : Nat) : State :=
  if s.shadows.isEmpty then s else iter (fun s => s.foldShadows ((s.walk ctx page).2.map sectorOf)) 4 s

/-- R351: sets an attribute bit of a leaf in memory. -/
def State.setLeafBit (s : State) (pa i : Nat) : State :=
  let e := s.rdM pa 8
  if leafBit e i then s else s.hwWriteN pa 8 (e + 2 ^ i)

/-! ### TLBs (R353) -/

/-- R353: an entry enters a TLB; the least recently used goes. L1: 64 entries, fully associative. -/
def tlbEnter (e : TlbEntry) (l : List TlbEntry) (cap : Nat) : List TlbEntry :=
  (e :: l.filter fun x => decide (¬ (x.ctx = e.ctx ∧ x.vpage = e.vpage ∧ x.lvl = e.lvl))).take cap

/-- R353: the die's TLB, 1024 sets of 8 by page number; within the set of the entry the least recently used goes. -/
def tlbEnterL2 (e : TlbEntry) (l : List TlbEntry) : List TlbEntry :=
  let inSet (x : TlbEntry) : Bool := decide (x.vpage % 1024 = e.vpage % 1024)
  tlbEnter e (l.filter inSet) 8 ++ l.filter fun x => !inSet x

/-- The TLB entry that answers for a page on a core: its own, else its die's. -/
def State.tlbFind (s : State) (c ctx page : Nat) : Option TlbEntry :=
  match (s.core c).tlb.find? fun e => e.covers ctx page with
  | some e => some e
  | none => (s.die (dieOf c)).tlb.find? fun e => e.covers ctx page

/-- R353: a use makes an entry the most recently used where it is found, and a hit in the die's TLB loads the core's. -/
def State.tlbUse (s : State) (c ctx page : Nat) : State :=
  match s.tlbFind c ctx page with
  | some e =>
    let s := if (s.core c).tlb.any fun x => x.covers ctx page then s
      else s.setDie (dieOf c) { s.die (dieOf c) with tlb := tlbEnterL2 e (s.die (dieOf c)).tlb }
    s.setCore c { s.core c with tlb := tlbEnter e (s.core c).tlb 64 }
  | none => s

/-- R353: a use of an entry of a die's TLB makes it the most recently used. -/
def State.dieTlbUse (s : State) (d ctx page : Nat) : State :=
  match (s.die d).tlb.find? fun e => e.covers ctx page with
  | some e => s.setDie d { s.die d with tlb := tlbEnterL2 e (s.die d).tlb }
  | none => s

/-- R354: whether the walks of pages can all start, wait or be joined on a die. -/
def State.walkRoom (s : State) (d ctx : Nat) (pages : List Nat) : Bool :=
  let k := s.die d
  decide ((pages.filter fun p => !k.walking ctx p).length ≤ (64 - k.walks.length) + (256 - k.walkQueue.length))

/-- R354: starts a walk on a free walker of the die or queues it; one that runs or waits is joined. A walk for a prefetch brings a line
to fetch; a walk for an access is demanded. -/
def State.startWalk (s : State) (d ctx page : Nat) (f : Option Fetch) : State :=
  let k := s.die d
  let same (w : Walk) : Bool := decide (w.ctx = ctx ∧ w.page = page)
  let join (w : Walk) : Walk :=
    if same w then { w with demand := w.demand || f.isNone, fetches := w.fetches ++ f.toList } else w
  if k.walks.any (fun p => same p.2) || k.walkQueue.any same then
    s.setDie d { k with walks := k.walks.mapVals fun _ w => join w, walkQueue := k.walkQueue.map join }
  else
    let w : Walk := ⟨s.serial, ctx, page, none, f.isNone, f.toList⟩
    let s : State := { s with serial := s.serial + 1 }
    if k.walks.length < 64 then s.setDie d { k with walks := k.walks.put w.walk w }
    else if k.walkQueue.length < 256 then s.setDie d { k with walkQueue := k.walkQueue ++ [w] }
    else s

/-- R349: the physical address of a virtual address through an entry. -/
def State.physOf (s : State) (e : TlbEntry) (va : Nat) : Nat :=
  let l := e.leaf.toNat
  let off := va % pageBytes e.lvl
  if leafBit l 7 then hostBase + leafTarget l + off
  else s.dpaOf (leafBit l 9) (leafHgroup l) (leafTarget l + off)

/-! ### Apertures (R171 to R175) -/

/-- What an access does with a page (R352, R188). -/
structure Want where
  rd : Bool
  wr : Bool
  atomic : Bool
  sys : Bool
deriving Repr

/-- An access resolved: its memory-class kinds (none: permitted), or the page it must wait for; where its bytes are. -/
structure Res where
  kinds : List Nat := []
  wait : Option Nat := none
  pas : List Nat := []
  attr : BitVec 24 := 0
  space : Space := .global
  page : Option Nat := none
deriving Repr

/-- R439: the enabled window of a context that holds a virtual address. -/
def State.windowAt (s : State) (ctx va : Nat) : Option Nat :=
  (s.windows.find? fun p => p.2.en && decide (p.2.ctx = ctx) && decide (p.2.base.toNat ≤ va)
    && decide (va < p.2.base.toNat + 65536 * p.2.len.toNat)).map Prod.fst

/-- R352, R188, R439: the kind with which an entry refuses an access, if it does. -/
def State.refusal (s : State) (ctx va : Nat) (w : Want) (l : Nat) : List Nat :=
  let host := leafBit l 7
  let pubw := leafBit l 8
  if (w.rd && !leafBit l 2) || (w.wr && !leafBit l 3) || (pubw && !host) || (w.atomic && pubw) || (w.atomic && host && !w.sys)
      || (pubw && (s.windowAt ctx va).isNone) then [1] else []

/-- R177: kind 3. -/
def alignKinds (va size : Nat) : List Nat := if va % size = 0 then [] else [3]

/-- R171, R352: a global address, through the TLBs. -/
def State.resolveGlobal (s : State) (c ctx va size : Nat) (w : Want) : Res :=
  if va / 2 ^ 52 % 256 ≠ 0 then { kinds := 4 :: alignKinds va size }
  else
    let page := pageOf va
    match s.tlbFind c ctx page with
    | some e =>
      let l := e.leaf.toNat
      let pa := s.physOf e va
      let space : Space :=
        if leafBit l 8 then .window ((s.windowAt ctx va).getD 0) else if leafBit l 7 then .host else .global
      { kinds := s.refusal ctx va w l ++ alignKinds va size, pas := fromN pa size, attr := BitVec.ofNat 24 l, space := space,
        page := some page }
    | none =>
      match (s.core c).faults.find? fun x => decide (x.ctx = ctx ∧ x.page = page) with
      | some x => { kinds := (x.fault.getD 0) :: alignKinds va size, page := some page }
      | none => { wait := some page }

/-- R173: a stack address. -/
def State.resolveStack (s : State) (g : Group) (L va size : Nat) (atomic : Bool) : Res :=
  let o := va % 2 ^ 59
  let W := s.stackW g.ctx
  let base := s.blockBase g.ctx g.block
  let rel := decide (va / 2 ^ 59 % 2 = 1)
  let ok := if rel then g.sup && decide (0x0A00 ≤ o) && decide (o + size ≤ 0x0A00 + 32 * W + 1152) else decide (o + size ≤ W)
  let at_ := if rel then base + o else base + 0x0A00 + L * W + o
  { kinds := (if atomic then [4] else []) ++ (if ok then [] else [5]) ++ alignKinds va size, pas := fromN at_ size, space := .stack }

/-- R175: the workgroup of a gang by rank, with its core. DESIGN CHOICE (log 87): a rank below the gang size whose workgroup has ended has no
partition left, and an access to it takes kind 6. -/
def State.gangMember (s : State) (c w rank : Nat) : Option (Nat × Workgroup) :=
  match s.wgOf c w with
  | none => none
  | some x =>
    if rank = x.rank then some (c, x)
    else match s.gangs.look x.gang with
      | none => none
      | some g => match g.cores[rank]? with
        | none => none
        | some c' => ((s.core c').wgs.find? fun p => decide (p.2.gang = x.gang ∧ p.2.rank = rank)).map fun p => (c', p.2)

/-- R175: a local-store address; the bytes are core offsets of the member's core. -/
def State.resolveLocal (s : State) (c w va size : Nat) : Res :=
  let o := va % 2 ^ 58
  match s.gangMember c w (va / 2 ^ 58 % 4) with
  | some (c', x) =>
    { kinds := (if o + size ≤ x.size then [] else [6]) ++ alignKinds va size, pas := fromN (x.base + o) size, space := .loc c' }
  | none => { kinds := 6 :: alignKinds va size, space := .loc c }

/-- R171: a generic address of a lane. -/
def State.resolve (s : State) (c : Nat) (g : Group) (L va size : Nat) (w : Want) : Res :=
  let tag := va / 2 ^ 60
  if tag = 0 then s.resolveGlobal c g.ctx va size w
  else if tag = 14 then s.resolveStack g L va size w.atomic
  else if tag = 15 then s.resolveLocal c g.wg va size
  else { kinds := 4 :: alignKinds va size }

/-- R351: a write through an entry whose dirty bit is 0 sets it, in memory and in the TLBs, before the write is performed. -/
def State.markDirty (s : State) (c ctx page : Nat) : State :=
  match s.tlbFind c ctx page with
  | none => s
  | some e =>
    if e.leaf.getLsbD 5 then s
    else
      let s := match (s.walk ctx page).1 with
        | .leaf _ _ pa => s.setLeafBit pa 5
        | .fault _ => s
      let upd (l : List TlbEntry) : List TlbEntry :=
        l.map fun x => if x.covers ctx page then { x with leaf := x.leaf ||| 0x20 } else x
      let s := s.setCore c { s.core c with tlb := upd (s.core c).tlb }
      s.setDie (dieOf c) { s.die (dieOf c) with tlb := upd (s.die (dieOf c)).tlb }

/-! ### Translation for the module's own agents -/

/-- R351, R352: a global address of a context as an engine, the distributor or a home atomic unit translates it: a walk in one step.
The answer is the kinds that refuse the access, or the bytes, the leaf and the leaf's address. -/
structure Phys where
  kinds : List Nat := []
  pa : Nat := 0
  leaf : Nat := 0
  leafAt : Nat := 0
  lvl : Nat := 0
deriving Repr

def State.engineRes (s : State) (ctx va : Nat) (w : Want) : Phys :=
  if va / 2 ^ 52 ≠ 0 then { kinds := [4] }
  else match (s.walk ctx (pageOf va)).1 with
    | .fault k => { kinds := [k] }
    | .leaf lvl e at_ =>
      { kinds := s.refusal ctx va w e, pa := s.physOf ⟨ctx, pageOf va, lvl, BitVec.ofNat 64 e⟩ va, leaf := e, leafAt := at_, lvl := lvl }

/-- R353: the engines of a core translate through its TLBs; a page that they do not hold is walked in the same step and loaded (R350). -/
def State.loadTlb (s : State) (c ctx page : Nat) : State :=
  if (s.tlbFind c ctx page).isSome then s.tlbUse c ctx page
  else
    let s := s.roundWalk ctx page
    match (s.walkBy (some (dieOf c)) ctx page).1 with
    | .leaf lvl _ at_ =>
      let s := s.setLeafBit at_ 4
      let e : TlbEntry := ⟨ctx, page, lvl, BitVec.ofNat 64 (s.rdM at_ 8)⟩
      (s.setDie (dieOf c) { s.die (dieOf c) with tlb := tlbEnterL2 e (s.die (dieOf c)).tlb }).tlbUse c ctx page
    | .fault _ => s

/-- R351 to R353: a global address as an engine of a core translates it. -/
def State.coreRes (s : State) (c ctx va : Nat) (w : Want) : Phys :=
  if va / 2 ^ 52 ≠ 0 then { kinds := [4] }
  else match s.tlbFind c ctx (pageOf va) with
    | some e => { kinds := s.refusal ctx va w e.leaf.toNat, pa := s.physOf e va, leaf := e.leaf.toNat, lvl := e.lvl }
    | none => match (s.walkBy (some (dieOf c)) ctx (pageOf va)).1 with
      | .fault k => { kinds := [k] }
      | .leaf lvl e at_ =>
        { kinds := s.refusal ctx va w e, pa := s.physOf ⟨ctx, pageOf va, lvl, BitVec.ofNat 64 e⟩ va, leaf := e, leafAt := at_, lvl := lvl }

/-- The pages that a run of bytes touches, by their first address in it. -/
def pagesOf (va n : Nat) : List Nat :=
  if n = 0 then [] else (fromN (pageOf va) (pageOf (va + n - 1) - pageOf va + 1)).map fun p => max va (p * 65536)

/-- R353: the pages of a run of bytes are loaded. -/
def State.loadTlbs (s : State) (c ctx va n : Nat) : State :=
  if 2 ^ 52 ≤ va then s else (pagesOf va n).foldl (fun s a => s.loadTlb c ctx (pageOf a)) s

/-- The kinds that refuse an agent's access to a run of bytes. -/
def State.rangeKinds (s : State) (ctx va n : Nat) (w : Want) : List Nat :=
  (pagesOf va n).flatMap fun a => (s.engineRes ctx a w).kinds

/-- The physical addresses of a run of bytes that translates. -/
def State.rangePas (s : State) (ctx va n : Nat) (w : Want) : List Nat :=
  (pagesOf va n).flatMap fun a => fromN (s.engineRes ctx a w).pa (min (va + n) ((pageOf a + 1) * 65536) - a)

/-- R351: the accessed bit of a run's pages is set, and the dirty bit by a write. -/
def State.touchRange (s : State) (ctx va n : Nat) (w : Want) : State :=
  (pagesOf va n).foldl (fun s a =>
    let r := s.engineRes ctx a w
    if r.kinds = [] then (if w.wr then (s.setLeafBit r.leafAt 4).setLeafBit r.leafAt 5 else s.setLeafBit r.leafAt 4) else s) s

/-- R166: the lowest memory-class cause of an agent's access. -/
def memCause (kinds : List Nat) (access : Nat) : Option Nat := leastBy id (kinds.map fun k => 0x40 + 8 * k + access)

/-! ### Access counters (R358 to R361) -/

/-- R361: a notification record, as 16 bytes. -/
def notifyRecord (page ctx die count hgroup : Nat) (spread : Bool) : Nat :=
  page % 2 ^ 36 + ctx * 2 ^ 36 + die * 2 ^ 42 + count * 2 ^ 48 + hgroup * 2 ^ 64 + spread.toNat * 2 ^ 67

/-- R359: the counter entry after a counted miss, with the notification queue. -/
def State.countEntry (s : State) (d : Nat) (e : Counter) (l : Nat) : State × Counter :=
  let e := if e.pending then e else { e with count := min (e.count + 1) 65535 }
  let thr := s.quota e.ctx 0x0C 4
  if thr ≤ e.count ∧ ¬ e.queued then
    let r := s.regs
    if (r.nqTail - r.nqHead).toNat < 2 ^ r.nqSize then
      let rec_ := notifyRecord e.page e.ctx d e.count (leafHgroup l) (leafBit l 9)
      let s := s.hwWriteN (r.nqBase.toNat + 16 * (r.nqTail.toNat % 2 ^ r.nqSize)) 16 rec_
      ({ s with regs := { s.regs with nqTail := r.nqTail + 1 } },
        { e with queued := true, pending := false, record := r.nqTail.toNat })
    else ({ s with regs := { r with nqOver := r.nqOver + 1 } }, { e with pending := true })
  else (s, e)

/-- R358, R359: an L2 miss of a die to a page with ace = 1 whose sector is homed outside the die's home group. -/
def State.countMiss (s : State) (d ctx page sec : Nat) (attr : BitVec 24) : State :=
  let l := attr.toNat
  if !leafBit l 6 || leafBit l 7 || (!leafBit l 9 && decide (homeBase sec / 3 = d)) then s
  else
    let k := s.die d
    match k.counters.find? fun e => decide (e.ctx = ctx ∧ e.page = page) with
    | some e =>
      let (s, e') := s.countEntry d e l
      s.setDie d { s.die d with counters := e' :: k.counters.filter fun x => decide (x ≠ e) }
    | none =>
      let idle := k.counters.filter fun e => !e.queued && !e.pending
      if k.counters.length < 4096 ∨ idle ≠ [] then
        let victim := if k.counters.length < 4096 then none else idle.getLast?
        let (s, e') := s.countEntry d ⟨ctx, page, 0, 0, false, false⟩ l
        s.setDie d { s.die d with counters := e' :: k.counters.filter fun x => decide (some x ≠ victim) }
      else { s with regs := { s.regs with nqOver := s.regs.nqOver + 1 } }

/-- R344: whether a miss on a sector has a place: its line is allocated in the die's L2, or one of the slice's 32 miss buffers is free. -/
def State.missRoom (s : State) (d sec : Nat) : Bool :=
  let has (x : Nat) : Bool := (s.die d).lines.any fun p => p.1 = x / 4
  has sec || decide ((s.misses.filter fun p =>
    decide (p.2.holder = d ∧ sliceOf p.2.sector = sliceOf sec) && !has p.2.sector).length < 32)

/-- R313, R344, R348, R359: an access of a core that its die's L2 cannot answer allocates a miss; the miss is counted. With no place for it the
access asks again later. -/
def State.missFor (s : State) (c ctx sec : Nat) (write : Bool) (page : Option Nat) (attr : BitVec 24) : State :=
  let d := dieOf c
  let t := s.tok d sec
  if (if write then t.canWrite else t.canRead) then s
  else
    if (s.missOf d sec).isNone && !s.missRoom d sec then s
    else
    let s := if (s.missOf d sec).isNone then s.countMiss d ctx (page.getD 0) sec (if page.isSome then attr else 0) else s
    s.allocMiss d sec write c ctx

end Sys2Proof.Machine
end

