-- ==== Sys2Proof/Machine/Cache.lean ====
section
/-! DEFINITION. The L1 of a core (R283, R343) and the lines of a die's L2: allocation, protection ranks, ways and eviction (R315, R344
to R348). -/

namespace Sys2Proof.Machine

/-! ### L1 (R343) -/

/-- The byte of a physical address as the core's L1 holds it for a context. -/
def Core.l1Byte (k : Core) (ctx a : Nat) : Option Byte :=
  match k.l1.find? fun l => decide (l.ctx = ctx ∧ l.line = a / 256) with
  | some l => (l.sectors.look (a / 64)).map fun b => SMap.get 0 b (a % 64)
  | none => none

/-- R343: whether the L1 holds a line of a context. -/
def Core.l1Has (k : Core) (ctx line : Nat) : Bool := k.l1.any fun l => decide (l.ctx = ctx ∧ l.line = line)

/-- R343: fills a sector, allocating its line in its set of 8 (the set is the line number modulo 128); least recently used goes. A line that stays
keeps its position. -/
def Core.l1Fill (k : Core) (ctx sec : Nat) (bytes : List Byte) (evictFirst stays : Bool) : Core :=
  let line := sec / 4
  let data : SMap Byte := (fromN 0 64).zip bytes
  match k.l1.find? fun l => decide (l.ctx = ctx ∧ l.line = line) with
  | some l =>
    let l' := { l with sectors := l.sectors.put sec data }
    if stays then { k with l1 := k.l1.map fun x => if x.ctx = ctx ∧ x.line = line then l' else x }
    else { k with l1 := l' :: k.l1.filter fun x => decide (¬ (x.ctx = ctx ∧ x.line = line)) }
  | none =>
    let inSet (x : L1Line) : Bool := decide (x.line % 128 = line % 128)
    let set := (k.l1.filter inSet).take 7
    let rest := k.l1.filter fun x => !inSet x
    let l : L1Line := ⟨ctx, line, [(sec, data)]⟩
    { k with l1 := if evictFirst then set ++ [l] ++ rest else l :: set ++ rest }

/-- R283: a store updates only the sectors that the L1 already holds. -/
def Core.l1Store (k : Core) (ctx : Nat) (cells : List (Nat × Byte)) : Core :=
  { k with l1 := k.l1.map fun l =>
      if l.ctx = ctx then
        { l with sectors := l.sectors.mapVals fun sec b =>
            cells.foldl (fun b p => if p.1 / 64 = sec then SMap.put b (p.1 % 64) p.2 else b) b }
      else l }

/-- R343: the lines that a hit uses become the most recently used. -/
def Core.l1Touch (k : Core) (ctx : Nat) (pas : List Nat) : Core :=
  let hit (l : L1Line) : Bool := decide (l.ctx = ctx) && pas.any fun a => decide (a / 256 = l.line)
  { k with l1 := k.l1.filter hit ++ k.l1.filter fun l => !hit l }

/-- R185: invalidates the lines of a context. -/
def Core.l1Invalidate (k : Core) (ctx : Nat) : Core := { k with l1 := k.l1.filter fun l => decide (l.ctx ≠ ctx) }

/-- R183, R287: drops the lines that hold any of the given bytes. -/
def Core.l1Drop (k : Core) (ctx : Nat) (pas : List Nat) : Core :=
  { k with l1 := k.l1.filter fun l => !(decide (l.ctx = ctx) && pas.any fun a => decide (a / 256 = l.line)) }

/-! ### L2 lines (R344 to R347) -/

def popcount16 (m : BitVec 16) : Nat := ((List.range 16).filter fun i => m.getLsbD i).length

/-- R345: the ways in which a context may allocate on a die. -/
def State.wayMask (s : State) (d ctx : Nat) : BitVec 16 := (s.die d).ways.get 0 ctx

/-- R65, R315: a slice rounds the shadows of a line before it evicts it; without every token their rounded values are pending writes. -/
def State.roundLine (s : State) (d line : Nat) : State := (fromN (4 * line) 4).foldl (fun s sec => s.roundShadow d sec) s

/-- R313, R315: a line that has an outstanding miss, an answer still to come, a pending write or a recent turn as persistent requester is not
evicted. -/
def State.lineHeld (s : State) (d line : Nat) : Bool :=
  (fromN (4 * line) 4).any fun sec =>
    (s.missOf d sec).isSome || s.answerDue d sec || (s.die d).pw.any (fun w => decide (w.sector = sec))
      || decide (((s.die d).served.look sec).any fun t => decide (s.now < t + 2600))

/-- R65, R315: a sector that is given up sends its tokens to the home: WB with data for the owner, TOK otherwise. Its shadow is rounded first, and a
slice keeps a sector on which a write is still pending. -/
def State.returnTokens (s : State) (h sec : Nat) : State :=
  let s := s.roundShadow h sec
  let s := if h < 8 then s.mergeSector h sec else s
  let t := s.tok h sec
  if t.tokens = 0 || (decide (h < 8) && (s.die h).pw.any fun w => decide (w.sector = sec)) then s
  else
    let s := s.setTok h sec { t with tokens := 0, owner := false, valid := false, dirty := false }
    s.send { blankMsg (if t.owner then .wb else .tok) sec h (homeOf sec) with
      tokens := t.tokens, owner := t.owner, dirty := t.dirty, serial := t.serial }

/-- R315: evicts a line. -/
def State.evictLine (s : State) (d line : Nat) : State :=
  let s := (fromN (4 * line) 4).foldl (fun s sec => s.returnTokens d sec) s
  s.setDie d { s.die d with lines := (s.die d).lines.erase line }

/-- R346: the rank that a hint gives: normal none, evict-first 0, evict-last 2, stream 0. -/
def hintRank (hint : BitVec 2) : Option Nat := match hint.toNat with | 0 => none | 2 => some 2 | _ => some 0

/-- R346, R347: a miss allocates a line, or uses a miss buffer (no line). A hit raises the line's rank to the hint's. An allocation made at rank 2
in place of 3 is counted. -/
def State.allocLine (s : State) (d ctx line cls : Nat) (hint : BitVec 2) : State :=
  let k := s.die d
  match k.lines.look line with
  | some l =>
    let l := { l with rank := max l.rank ((hintRank hint).getD l.rank), used := s.serial }
    { s.setDie d { k with lines := k.lines.put line l } with serial := s.serial + 1 }
  | none =>
    if hint = 3 ∧ cls < 2 then s
    else
      let mask := s.wayMask d ctx
      let set := k.lines.filter fun p => decide (p.1 % 1024 = line % 1024) && decide (sliceOf (4 * p.1) = sliceOf (4 * line))
      let want := max cls ((hintRank hint).getD cls)
      let pinned := (k.lines.filter fun p => decide (p.2.ctx = ctx ∧ p.2.rank = 3)).length
      let limit := s.quota ctx (0x20 + 2 * d) 2
      let full := decide (limit ≤ pinned) || decide (popcount16 mask - 1 ≤ (set.filter fun p => decide (p.2.rank = 3)).length)
      let demote := decide (want = 3) && full
      let rank := if demote then 2 else want
      let usable (w : Nat) : Bool := mask.getLsbD w && !(k.cleaning.any fun c => decide (c.1 = w))
      let put (s : State) (w : Nat) : State :=
        let k := s.die d
        let s := if demote then s.setCtx ctx { s.ctx ctx with pinOver := (s.ctx ctx).pinOver + 1 } else s
        { s.setDie d { k with lines := k.lines.put line ⟨ctx, w, rank, s.serial⟩ } with serial := s.serial + 1 }
      match (List.range 16).find? fun w => usable w && !(set.any fun p => decide (p.2.way = w)) with
      | some w => put s w
      | none =>
        match leastBy (fun p : Nat × L2Line => p.2.rank * (s.serial + 1) + p.2.used)
            (set.filter fun p => usable p.2.way && decide (p.2.rank < 3) && !s.lineHeld d p.1) with
        | some (v, l) => let s := s.roundLine d v; if s.lineHeld d v then s else put (s.evictLine d v) l.way
        | none => s

/-- R344: an engine of the die has still to read a sector that it asked for. -/
def State.engineWants (s : State) (d sec : Nat) : Bool :=
  s.cores.any fun p => (decide (dieOf p.1 = d) && p.2.streams.any fun q => q.2.need.any fun n => n.1 = sec)
    || (p.2.loadQ ++ p.2.storeQ).any fun o => decide (dieOf o.eng = d) && o.need.contains sec

/-- R313, R344: at the end of a miss that has no line, and once every answer has come and been used, the miss buffer returns its tokens. -/
def State.releaseBuffer (s : State) (d sec : Nat) : State :=
  if (s.die d).lines.any (fun p => decide (p.1 = sec / 4)) || (s.missOf d sec).isSome || s.answerDue d sec || s.engineWants d sec
      || (s.die d).pw.any (fun w => decide (w.sector = sec)) then s
  else s.returnTokens d sec

/-- R313, R344, R346, R358: the lines and the misses of an engine's access to sectors, at its core's die. `page` gives the page, with its
attribute word, through which a sector is reached. -/
def State.fetchSecs (s : State) (c ctx : Nat) (write : Bool) (page : Nat → Option (Nat × BitVec 24)) (secs : List Nat) : State :=
  let attr (x : Nat) : BitVec 24 := ((page x).map Prod.snd).getD 0
  let s := secs.foldl (fun s x => s.allocLine (dieOf c) ctx (x / 4) (leafClass (attr x).toNat) 0) s
  secs.foldl (fun s x => s.missFor c ctx x write ((page x).map Prod.fst) (attr x)) s

/-- R182, R348, R352: fetches a line through a translation, at the rank that a class and the hint give: allocated in the die's L2 and its sectors
requested, misses that are counted (R358). A page with the host flag or the publish-window flag is left alone, uncounted, and so is one that refuses a read; the answer tells whether the
prefetch was dropped (R182). -/
def State.fetchLine (s : State) (c ctx va cls : Nat) (hint : BitVec 2) (e : TlbEntry) : State × Bool :=
  let l := e.leaf.toNat
  if leafBit l 7 || leafBit l 8 then (s, false)
  else if !leafBit l 2 then (s, true)
  else
    let line := s.physOf e va / 256
    ((fromN (4 * line) 4).foldl (fun s sec => s.missFor c ctx sec false (some (pageOf va)) (BitVec.ofNat 24 l))
      (s.allocLine (dieOf c) ctx line cls hint), false)

/-- R21, R182: counts a dropped prefetch; the count saturates. -/
def Group.drop (g : Group) : Group := { g with pfdrop := if g.pfdrop = BitVec.allOnes 32 then g.pfdrop else g.pfdrop + 1 }

/-- R348: after two misses of a core to consecutive lines, the next 4 lines are fetched at rank 0: within the page by the translation
of the second miss, past its end through the die's TLB (R353: a use), walking if needed. A fetch past the end of a page by a TLB entry that forbids
reads is dropped; the second part of the answer counts these. DESIGN CHOICE (log 99): one for whose walk there is no room is not made, and counts
nothing. -/
def State.prefetchAfter (s : State) (c ctx line va uid : Nat) (e : TlbEntry) : State × Nat :=
  let d := dieOf c
  let k := s.die d
  let prev := k.lastMiss.look c
  let s := s.setDie d { k with lastMiss := k.lastMiss.put c line }
  if prev ≠ some (line - 1) ∨ line = 0 then (s, 0)
  else
    (fromN 1 4).foldl (fun (r : State × Nat) i =>
      let va' := va + 256 * i
      let en := if pageOf va' = pageOf va then some e else (r.1.die d).tlb.find? fun x => x.covers ctx (pageOf va')
      match en with
      | some en =>
        let q := (if pageOf va' = pageOf va then r.1 else r.1.dieTlbUse d ctx (pageOf va')).fetchLine c ctx va' 0 1 en
        (q.1, r.2 + q.2.toNat)
      | none => (r.1.startWalk d ctx (pageOf va') (some ⟨uid, c, va', 1, false, true⟩), r.2)) (s, 0)

end Sys2Proof.Machine
end

