-- ==== Sys2Proof/Machine/Flags.lean ====
section
/-! DEFINITION. The integer results of the lane instructions (R105 to R117) and their one flag: whether a saturation helper clamped
(R15, R40). A result that cannot clamp is a word; one that can is a word with the report. -/

namespace Sys2Proof.Machine

def ofI (x : Int) : Word := BitVec.ofInt 32 x

/-- R40: the saturation helpers, as a 32-bit result and the report of a clamp. -/
def satI (lo hi x : Int) : Word × Bool := let r := clampInt lo hi x; (ofI r.1, r.2)
def sat32 (x : Int) : Word × Bool := satI (-2147483648) 2147483647 x
def sat16 (x : Int) : Word × Bool := satI (-32768) 32767 x
def sat8 (x : Int) : Word × Bool := satI (-128) 127 x
/-- R105 -/
def satn32 (x : Int) : Word × Bool := satI 0 4294967295 x

/-- R111: `rne_int(a / 2^n)` for a signed a. -/
def rneInt (a : Int) (n : Nat) : Int := if a < 0 then -(rneShift a.natAbs n : Int) else (rneShift a.natAbs n : Int)

/-! ### Majors 0x00 to 0x03 (R106) -/

def mulhiI (a b : Word) : Word := BitVec.ofInt 32 (a.toInt * b.toInt / 4294967296)
def mulhiN (a b : Word) : Word := BitVec.ofNat 32 (a.toNat * b.toNat / 4294967296)
def mulwI (a b : Word) : Dword := BitVec.ofInt 64 (a.toInt * b.toInt)
def madwI (d : Dword) (a b : Word) : Dword := d + BitVec.ofInt 64 (a.toInt * b.toInt)
def madwN (d : Dword) (a b : Word) : Dword := d + BitVec.ofNat 64 (a.toNat * b.toNat)
def sadN (d a b : Word) : Word := d + (if a.toNat ≤ b.toNat then b - a else a - b)
def minI (a b : Word) : Word := if a.toInt ≤ b.toInt then a else b
def maxI (a b : Word) : Word := if a.toInt ≤ b.toInt then b else a
def minN (a b : Word) : Word := if a.toNat ≤ b.toNat then a else b
def maxN (a b : Word) : Word := if a.toNat ≤ b.toNat then b else a

/-! ### Majors 0x04 to 0x09 (R107 to R110) -/

def amount (b : Word) : Nat := b.toNat % 32
def shlW (a b : Word) : Word := a <<< amount b
def shrW (a b : Word) : Word := a >>> amount b
def sarW (a b : Word) : Word := a.sshiftRight (amount b)
def rolW (a b : Word) : Word := a.rotateLeft (amount b)
def bitsOf (a : Word) : List Nat := (List.range 32).filter fun i => a.getLsbD i
def popcW (a : Word) : Word := BitVec.ofNat 32 (bitsOf a).length
def clzW (a : Word) : Word := BitVec.ofNat 32 (((List.range 32).find? fun i => a.getLsbD (31 - i)).getD 32)
def brevW (a : Word) : Word := (List.range 32).foldl (fun x i => if a.getLsbD (31 - i) then x ||| (1 <<< i) else x) 0
def ffsW (a : Word) : Word := BitVec.ofNat 32 ((bitsOf a).head?.getD 32)

/-- R108: position and length of a field, cut at bit 31. -/
def fieldPos (b : Word) : Nat := b.toNat % 32
def fieldLen (b : Word) : Nat := min (min (b.toNat / 256 % 64) 32) (32 - fieldPos b)

/-- The low n bits, zero- or sign-extended. -/
def zextW (a : Word) (n : Nat) : Word := BitVec.ofNat 32 (a.toNat % 2 ^ n)
def sextW (a : Word) (n : Nat) : Word := if n = 0 then 0 else ofI (intValue n true a.toNat)

def bfxN (a b : Word) : Word := zextW (a >>> fieldPos b) (fieldLen b)
def bfxI (a b : Word) : Word := sextW (a >>> fieldPos b) (fieldLen b)
def bfiW (d a b : Word) : Word :=
  let k : Word := BitVec.ofNat 32 ((2 ^ fieldLen b - 1) * 2 ^ fieldPos b)
  (d &&& ~~~ k) ||| ((a <<< fieldPos b) &&& k)

/-- R108: byte k of BYSEL, given byte k - 1 of the result. -/
def byselByte (a b : Word) (k : Nat) (below : Byte) : Byte :=
  if b.getLsbD (8 + k) then 0
  else if b.getLsbD (12 + k) && decide (0 < k) then (if below.getLsbD 7 then 0xFF else 0)
  else a.extractLsb' (8 * (b.toNat / 4 ^ k % 4)) 8

def byselW (a b : Word) : Word :=
  let r0 := byselByte a b 0 0
  let r1 := byselByte a b 1 r0
  let r2 := byselByte a b 2 r1
  let r3 := byselByte a b 3 r2
  r3 ++ r2 ++ r1 ++ r0

/-- R109 -/
def absW (a : Word) : Word := if a.toInt < 0 then -a else a

/-! ### Majors 0x0A to 0x0D (R111 to R114) -/

def shrrW (a b : Word) : Word := ofI (rneInt a.toInt (amount b))
def shrrn16 (a b : Word) : Word × Bool := sat16 (rneInt a.toInt (amount b))

/-- Element k of an i16x2, n16x2 or i8x4 register (R39). -/
def e16 (a : Word) (k : Nat) : Int := (a.extractLsb' (16 * k) 16).toInt
def n16 (a : Word) (k : Nat) : Int := (a.extractLsb' (16 * k) 16).toNat
def e8 (a : Word) (k : Nat) : Int := (a.extractLsb' (8 * k) 8).toInt

/-- Two 16-bit elements in a register. -/
def pair16 (lo hi : Int) : Word := BitVec.ofInt 16 hi ++ BitVec.ofInt 16 lo

/-- R112: both elements, each saturated. -/
def packed16 (f : Int → Int → Int) (a b : Word) : Word × Bool :=
  let x := clampInt (-32768) 32767 (f (e16 a 0) (e16 b 0))
  let y := clampInt (-32768) 32767 (f (e16 a 1) (e16 b 1))
  (pair16 x.1 y.1, x.2 || y.2)

def pmaxW (a b : Word) : Word := pair16 (max (e16 a 0) (e16 b 0)) (max (e16 a 1) (e16 b 1))

/-- R113 -/
def pmad2 (d a b : Word) : Word × Bool := sat32 (d.toInt + e16 a 0 * e16 b 0 + e16 a 1 * e16 b 1)
def pmad2x (d a b : Word) : Word × Bool := sat32 (d.toInt + e16 a 0 * e16 b 1 + e16 a 1 * e16 b 0)
def pmad4 (d a b : Word) : Word × Bool :=
  sat32 (d.toInt + e8 a 0 * e8 b 0 + e8 a 1 * e8 b 1 + e8 a 2 * e8 b 2 + e8 a 3 * e8 b 3)
def pmad2n (d a b : Word) : Word × Bool := satn32 (d.toNat + n16 a 0 * n16 b 0 + n16 a 1 * n16 b 1)

/-- R114 -/
def pack16W (a b : Word) : Word := b.extractLsb' 0 16 ++ a.extractLsb' 0 16
def pshrrW (a b : Word) : Word := pair16 (rneInt (e16 a 0) (b.toNat % 16)) (rneInt (e16 a 1) (b.toNat % 16))

/-! ### Compares (R82, R118) -/

def icond (c : Nat) (x y : Int) : Bool :=
  if c = 0 then decide (x = y) else if c = 1 then decide (x ≠ y) else if c = 2 then decide (x < y)
  else if c = 3 then decide (x ≤ y) else if c = 4 then decide (y < x) else decide (y ≤ x)

/-! ### Packed floating point (R123) -/

/-- Each element of an x2 register by a function on encodings. -/
def eachHalf (f : Nat → Nat → Nat → Nat) (d a b : Word) : Word :=
  BitVec.ofNat 16 (f (d.toNat / 65536) (a.toNat / 65536) (b.toNat / 65536))
    ++ BitVec.ofNat 16 (f (d.toNat % 65536) (a.toNat % 65536) (b.toNat % 65536))

def hadd (F : Fmt) (a b : Word) : Word := eachHalf (fun _ a b => F.rne false ((F.decode a).add (F.decode b))) 0 a b
def hmul (F : Fmt) (a b : Word) : Word := eachHalf (fun _ a b => F.rne false ((F.decode a).mul (F.decode b))) 0 a b
def hfma (F : Fmt) (d a b : Word) : Word :=
  eachHalf (fun d a b => F.rne false ((F.decode d).add ((F.decode a).mul (F.decode b)))) d a b
def hmax (F : Fmt) (a b : Word) : Word := eachHalf (fun _ a b => F.pick true a b) 0 a b

end Sys2Proof.Machine
end

