-- ==== Sys2Proof/Machine/Memory.lean ====
section
/-! DEFINITION. Outstanding memory operations: when an access may be performed (R183, R184, R275), what each lane reads or writes
(R178 to R190, R277, R278, R283), and the waits of releases. -/

namespace Sys2Proof.Machine

/-! ### Where groups are: running, in a save slot or in backing (R391) -/

/-- The core and slot of a running group, by identity. -/
def State.findUid (s : State) (uid : Nat) : Option (Nat × Nat) :=
  s.cores.findSome? fun p => (p.2.groups.find? fun q => q.2.uid = uid).map fun q => (p.1, q.1)

def Image.has (im : Image) (uid : Nat) : Bool := im.groups.any fun p => p.2.uid = uid
def Image.modUid (im : Image) (uid : Nat) (f : Group → Group) : Image :=
  { im with groups := im.groups.mapVals fun _ g => if g.uid = uid then f g else g }

def Image.modSeq (im : Image) (copy : Bool) (f : Sequencer → Sequencer) : Image :=
  if copy then { im with cseq := f im.cseq } else { im with mseq := f im.mseq }

/-- R391: whether the workgroup of a slot runs on a core; otherwise it is saved there. Slots of running and saved workgroups of one
context differ. -/
def State.holds (s : State) (c ctx w : Nat) : Bool := ((s.wgOf c w).map fun x => decide (x.ctx = ctx)).getD false

/-- Whether a workgroup is still there, on a core or in an image. -/
def State.wgLives (s : State) (uid : Nat) : Bool :=
  s.cores.any (fun p => p.2.wgs.any fun w => w.2.uid = uid) || s.images.any fun im => im.wgs.any fun w => w.2.uid = uid

/-- R391: changes the image of a saved workgroup. -/
def State.modImage (s : State) (c ctx w : Nat) (f : Image → Image) : State :=
  s.mapImages fun im => if im.ctx = ctx ∧ im.core = c ∧ (im.wgs.look w).isSome = true then f im else im

/-- R391: changes a group wherever it is: on its core, or in its saved image. -/
def State.modUid (s : State) (uid : Nat) (f : Group → Group) : State :=
  match s.findUid uid with
  | some (c, g) => match s.grp c g with
    | some x => s.setGrp c g (f x)
    | none => s
  | none => s.mapImages fun im => if im.has uid then im.modUid uid f else im

/-- The group, wherever it is. -/
def State.getUid (s : State) (uid : Nat) : Option Group :=
  match s.findUid uid with
  | some (c, g) => s.grp c g
  | none => s.images.findSome? fun im => (im.groups.find? fun q => q.2.uid = uid).map Prod.snd

/-- The workgroup of a group, wherever it is. -/
def State.wgOfUid (s : State) (uid : Nat) : Option Workgroup :=
  match s.findUid uid with
  | some (c, g) => (s.grp c g).bind fun x => s.wgOf c x.wg
  | none => s.images.findSome? fun im => (im.groups.find? fun q => q.2.uid = uid).bind fun q => im.wgs.look q.2.wg

/-! ### Operations -/

def Scope.wide : Scope → Bool
  | .group | .workgroup => false
  | _ => true
def Scope.deep : Scope → Bool
  | .device | .system => true
  | _ => false

/-- R79: the scope of a code (6 and 7 do not decode). -/
def scopeOf (c : BitVec 3) : Scope :=
  match c.toNat with
  | 0 => .group | 1 => .workgroup | 2 => .gang | 3 => .die | 4 => .device | _ => .system

/-- The store that an address belongs to, where it is not physical memory. -/
def Space.bank : Space → Option Nat
  | .loc c => some c
  | .window w => some (1000 + w)
  | _ => none

def OpKind.writes : OpKind → Bool
  | .store _ _ | .atomic _ _ _ => true
  | _ => false

def Op.performedLanes (o : Op) : Bool := o.lanes.all fun l => l.val.isSome

/-- Whether two accesses touch a common byte. -/
def overlap (a b : List Nat) : Bool := a.any b.contains

/-- R239, R263: a DPOST of the group, accepted before, has still to read its record; it may lie anywhere. -/
def State.postReads (s : State) (uid upto : Nat) : Bool :=
  s.members.any fun p => p.2.exchange && decide (p.2.stage = .accepted ∧ p.1 < upto) && p.2.issues.any fun i => i.uid = uid

/-- R183, R279: an earlier access of the group to one of these bytes is not performed yet. -/
def State.heldBack (s : State) (o : Op) (x : LaneAcc) : Bool :=
  (o.kind.writes && s.postReads o.uid o.op) || s.ops.any fun p => decide (p.2.uid = o.uid ∧ p.2.op < o.op ∧ p.2.kind ≠ .pref)
    && p.2.lanes.any fun l => l.val.isNone && decide (l.space.bank = x.space.bank) && overlap l.pas x.pas

/-- R64, R277: a pending write that holds something of an operation of a group before a serial. -/
def PWrite.holds (w : PWrite) (uid upto : Nat) : Bool :=
  decide (w.uid = uid ∧ w.op < upto) || w.also.any fun p => decide (p.1 = uid ∧ p.2 < upto)

/-- R64, R184: a die's pending writes or shadows hold a write or a sum of an operation. -/
def State.standsPending (s : State) (d : Nat) (o : Op) : Bool :=
  (s.die d).pw.any (fun w => decide (w.op = o.op) || w.also.contains (o.uid, o.op))
    || s.shadows.any fun p => decide (p.1 % 64 = d) && p.2.parts.contains (o.uid, o.op)

/-- R184: an operation is performed at a scope. -/
def State.performedAt (s : State) (o : Op) (sc : Scope) : Bool :=
  o.performedLanes
    && (match sc with
        | .group | .workgroup | .die => true
        | .gang => o.acked
        | _ => !s.standsPending (dieOf o.core) o)

/-- R185, R186: every earlier load, atomic and queue operation of a group has its value. -/
def State.valuesHeld (s : State) (uid upto : Nat) : Bool :=
  !s.ops.any fun p => decide (p.2.uid = uid ∧ p.2.op < upto)
    && (match p.2.kind with
        | .load _ _ _ | .ldx _ _ | .atomic _ true _ => !p.2.performedLanes
        | .qpush _ | .qpop _ | .qfree _ => true
        | _ => false)

/-- R225: an accepted ACC2T counts as a store of its issuing group, in a saved image too. -/
def State.tileStores (s : State) (uid upto : Nat) : Bool :=
  let hit (q : List MatrixOp) : Bool := q.any fun o =>
    decide (o.src = .grp uid ∧ o.op < upto) && (match o.kind with | .acc2t _ _ _ _ => true | _ => false)
  s.cores.any (fun p => hit p.2.mqueue) || s.images.any fun im => hit im.mqueue

/-- R185, R275: every earlier store, atomic and reduction of a group is performed at a scope, with the waits of the wider scopes. -/
def State.writesPerformed (s : State) (uid c ctx : Nat) (sc : Scope) (upto : Nat) : Bool :=
  !(s.ops.any fun p => p.2.kind.writes && decide (p.2.uid = uid ∧ p.2.op < upto) && !s.performedAt p.2 sc)
    && !s.tileStores uid upto
    && (!sc.wide || !(s.ops.any fun p => p.2.kind.writes && decide (p.2.core = c ∧ p.2.ctx = ctx ∧ p.2.op < upto) && !p.2.acked))
    && (!sc.deep || (!((s.die (dieOf c)).pw.any fun w => decide (w.ctx = ctx) && (decide (w.serial < upto) || w.holds uid upto))
      && !s.shadows.any fun p => decide (p.1 % 64 = dieOf c ∧ p.2.ctx = ctx ∧ p.2.since < upto)))

/-- R65, R275: the shadows of a context at a die are rounded before a device-scope release can be performed. -/
def State.flushShadows (s : State) (d ctx : Nat) : State :=
  (s.shadows.filter fun p => decide (p.1 % 64 = d ∧ p.2.ctx = ctx)).foldl (fun s p => s.roundShadow d (p.1 / 64)) s

/-- R65, R275: before a device-scope release is performed, the context's shadows at the die are rounded. -/
def State.flushFor (s : State) (c ctx : Nat) (sc : Scope) : State := if sc.deep then s.flushShadows (dieOf c) ctx else s

/-- R65, R275, R371: the shadows of a context at every die are rounded. -/
def State.flushCtx (s : State) (x : Nat) : State := (List.range 8).foldl (fun s d => s.flushShadows d x) s

/-! ### Bytes and words -/

/-- Little-endian words of bytes; a rest shorter than a word is zero-extended. -/
def toWords (l : List Byte) : List Word :=
  (List.range (ceilDiv l.length 4)).map fun i => BitVec.ofNat 32 (ofBytes ((l.drop (4 * i)).take 4))

def fromWords (l : List Word) : List Byte := l.flatMap fun w => toBytes 4 w.toNat

/-- R201: the byte of a window page: staged, else host memory. The latest staged byte wins; sectors that drain are older. -/
def State.windowByte (s : State) (w a : Nat) : Byte :=
  let x := SMap.get ({} : Window) s.windows w
  ((x.drains.flatMap id ++ x.staged).foldl (fun r p => if p.1 = a then some p.2 else r) none).getD (s.merged a)

/-- R201: sectors that a window's staging buffer holds, staged or draining. -/
def Window.sectors (x : Window) : List Nat :=
  ((x.drains.flatMap fun d => (d.map fun p => p.1 / 64).eraseDups) ++ (x.staged.map fun p => p.1 / 64).eraseDups)

/-! ### Reads -/

/-- The bytes that the lanes of a store write to one store, in ascending lane order, so that the higher lane's stand last (R179). -/
def Op.cells (o : Op) (b : Option Nat) : List (Nat × Byte) :=
  (o.lanes.filter fun l => decide (l.space.bank = b)).flatMap fun l => l.pas.zip (fromWords l.arg)

/-- The latest of a list of bytes that names an address. -/
def latest (l : List (Nat × Byte)) (a : Nat) : Option Byte := l.foldl (fun r p => if p.1 = a then some p.2 else r) none

/-- R183: the bytes of a group's stores to one store that have issued and are not performed. -/
def State.ownCells (s : State) (src : Source) (b : Option Nat) : List (Nat × Byte) :=
  match src with
  | .seq _ _ => []
  | .grp uid => s.ops.flatMap fun p => match p.2.kind with
    | .store _ _ => if p.2.uid = uid ∧ p.2.performedLanes = false then p.2.cells b else []
    | _ => []

/-- R183: an atomic or reduction of a group that has issued and not executed touches one of these bytes. -/
def State.ownAtomic (s : State) (src : Source) (b : Option Nat) (pas : List Nat) : Bool :=
  match src with
  | .seq _ _ => false
  | .grp uid => s.ops.any fun p => decide (p.2.uid = uid) && (match p.2.kind with | .atomic _ _ _ => true | _ => false)
      && p.2.lanes.any fun l => l.val.isNone && decide (l.space.bank = b) && overlap l.pas pas

/-- R65, R284: the shadows that a die holds of some sectors are rounded. -/
def State.roundAll (s : State) (d : Nat) (secs : List Nat) : State := secs.foldl (fun s x => s.roundShadow d x) s

/-- R65: the shadows of some sectors are rounded at whichever units hold them: a read by an agent that no holder's tokens serve. -/
def State.roundSectors (s : State) (secs : List Nat) : State :=
  if s.shadows.isEmpty then s else secs.foldl (fun s x => (holdersOf x).foldl (fun s h => s.roundShadow h x) s) s

/-- R65, R284: a load of device or system scope rounds the shadows that its die holds of its sectors. -/
def State.roundFor (s : State) (o : Op) (l : LaneAcc) : State :=
  match l.space with
  | .loc _ | .window _ => s
  | _ => if o.scope.deep then s.roundAll (dieOf o.core) (l.pas.map sectorOf).eraseDups else s

/-- R284: a device-scope read of a die waits for the pending writes of the die to its sectors. -/
def State.diePending (s : State) (d : Nat) (secs : List Nat) : Bool := secs.any fun x => (s.die d).pw.any fun w => decide (w.sector = x)

/-- R343: a load fills a sector of its core's L1. A line that it allocates at the least recently used position stays there for its other lanes. -/
def State.l1Load (o : Op) (s : State) (x : Nat) : State :=
  let k := s.core o.core
  let first := decide (o.hint = 1)
  let now := (s.ops.look o.op).getD o
  let t := s.setCore o.core (k.l1Fill o.ctx x ((fromN (64 * x) 64).map fun a => s.dieView (dieOf o.core) a) first (now.fills.contains (x / 4)))
  if first && !k.l1Has o.ctx (x / 4) && (s.ops.look o.op).isSome then { t with ops := t.ops.put o.op { now with fills := (x / 4) :: now.fills } } else t

/-- R178, R184, R283: the bytes that a lane's read returns, where it can be performed now; an uncorrectable word or sector (R339) gives no
bytes. DESIGN CHOICE (log 95): a load of group or workgroup scope returns what the L1 holds, also where R293 says of four parties on one die
that every scope forbids the older value. -/
def State.readLane (s : State) (o : Op) (l : LaneAcc) : Option (List Byte × State) :=
  let pas := l.pas
  match l.space with
  | .loc c => if s.locBad c o.ctx pas then some ([], s) else some (pas.map fun a => s.lsGet c o.ctx a, s)
  | .window w => some (pas.map fun a => s.windowByte w a, s)
  | sp =>
    let d := dieOf o.core
    let k := s.core o.core
    let secs := (pas.map sectorOf).eraseDups
    let narrow := !o.scope.wide && decide (sp ≠ .stack)
    if narrow && pas.all fun a => (k.l1Byte o.ctx a).isSome then
      if s.sramBad 1 o.core pas then some ([], s)
      else
        let mine := ((s.ops.look o.op).map fun x => x.fills).getD []
        some (pas.map fun a => (k.l1Byte o.ctx a).getD 0, s.setCore o.core (k.l1Touch o.ctx (pas.filter fun a => !mine.contains (a / 256))))
    else if secs.all (fun x => (s.tok d x).canRead) && !(o.scope.deep && s.diePending d secs) then
      let s := s.roundAll d secs
      if secs.any s.badSectors.contains || s.sramBad 2 d pas then some ([], s)
      else
        let v := pas.map fun a => s.dieView d a
        some (v, if narrow && decide (o.hint ≠ 3) then secs.foldl (State.l1Load o) s else s)
    else none

/-! ### Writes -/

/-- R277, R283: bytes enter the pending-write order of a core's die, one write for each sector, and update the sectors that the L1
holds; a sector without all 16 tokens misses. `page` gives the page through which a sector is written, for R358; `plain` marks a plain store (R322). -/
def State.enterPending (s : State) (c ctx uid op : Nat) (plain : Bool) (page : Nat → Option (Nat × BitVec 24)) (cells : List (Nat × Byte)) : State :=
  let d := dieOf c
  let secs := (cells.map fun p => sectorOf p.1).eraseDups
  let s := s.setCore c ((s.core c).l1Store ctx cells)
  secs.foldl (fun s x =>
    let s := s.roundShadow d x
    let w : PWrite := ⟨s.serial, cells.filter fun p => decide (sectorOf p.1 = x), x, ctx, c, uid, op, page x, [], plain⟩
    let s := { s.setDie d { s.die d with pw := (s.die d).pw ++ [w] } with serial := s.serial + 1 }
    s.missFor c ctx x true ((page x).map Prod.fst) (((page x).map Prod.snd).getD 0)) s

/-- R201: bytes are staged in a window. -/
def State.stage (s : State) (w : Nat) (cells : List (Nat × Byte)) : State :=
  let x := SMap.get ({} : Window) s.windows w
  { s with windows := s.windows.put w { x with staged := x.staged ++ cells } }

/-- R358: the page through which an operation reaches a sector of device memory. -/
def Op.pageAt (o : Op) (sec : Nat) : Option (Nat × BitVec 24) :=
  (o.lanes.find? fun l => decide (l.space = .global) && l.pas.any fun a => decide (sectorOf a = sec)).map fun l => (pageOf l.va.toNat, l.attr)

/-- R179, R184: a store's bytes are written: into banks, staging buffers, and the pending-write order. -/
def State.enterStore (s : State) (o : Op) : State :=
  ((o.lanes.map fun l => l.space).eraseDups).foldl (fun s sp =>
    match sp with
    | .loc c => s.lsPut c o.ctx (o.cells sp.bank)
    | .window w => s.stage w (o.cells sp.bank)
    | _ => s) (if o.cells none = [] then s else s.enterPending o.core o.ctx o.uid o.op true o.pageAt (o.cells none))

/-! ### Atomics and reductions (R187, R188, R190) -/

def AtomOp.bytes : AtomOp → Nat
  | .addI64 | .casI64 => 8
  | _ => 4

/-- R187, R190: the new value of a location. -/
def AtomOp.new (a : AtomOp) (old : Nat) (arg : List Word) : Nat :=
  let o : Word := BitVec.ofNat 32 old
  let c := arg.getD 0 0
  match a with
  | .addI32 => (o + c).toNat
  | .minI32 => (minI o c).toNat
  | .maxI32 => (maxI o c).toNat
  | .minN32 => (minN o c).toNat
  | .maxN32 => (maxN o c).toNat
  | .and => (o &&& c).toNat
  | .or => (o ||| c).toNat
  | .xor => (o ^^^ c).toNat
  | .xchg => c.toNat
  | .cas => if o = c then (arg.getD 1 0).toNat else old
  | .addI64 => (old + c.toNat + (arg.getD 1 0).toNat * 2 ^ 32) % 2 ^ 64
  | .casI64 => if old = c.toNat + (arg.getD 1 0).toNat * 2 ^ 32 then (arg.getD 2 0).toNat + (arg.getD 3 0).toNat * 2 ^ 32 else old
  | .faddF32 => (faddW o c).toNat
  | .faddBf16x2 | .faddFp8 => old

/-- R64: the shadow of a sector at a holder, seeded from its bytes where none exists, with the operation that it serves now among its parts. -/
def State.shadowAt (s : State) (h sec : Nat) (o : Op) (isBf : Bool) (fmt : BitVec 4) (view : Nat → Byte) : Shadow :=
  match s.shadows.look (holderKey h sec) with
  | some x => { x with parts := if x.parts.contains (o.uid, o.op) then x.parts else x.parts ++ [(o.uid, o.op)] }
  | none =>
    let F := (floatFmt fmt.toNat).getD bf16
    let n := if isBf then 2 else 1
    ⟨isBf, fmt, (List.range (64 / n)).map fun i => wf32 (F.decode (ofBytes ((fromN (64 * sec + n * i) n).map view))), o.ctx, o.core, o.pageAt sec,
      [(o.uid, o.op)]⟩

/-- R64: adds a lane's operand elements to the shadow. -/
def Shadow.add (x : Shadow) (first : Nat) (arg : Word) : Shadow :=
  let F := (floatFmt x.fmt.toNat).getD Sys2Proof.Machine.bf16
  let n := x.bytes
  { x with elems := (List.range x.elems.length).map fun i =>
      let e := x.elems.getD i 0
      if first / n ≤ i ∧ i < (first + 4) / n then
        faddW e (wf32 (F.decode (arg.toNat / 2 ^ (8 * (n * i - first)) % 2 ^ (8 * n))))
      else e }

/-- R64, R65: a BF16 or FP8 reduction of a lane at a holder. DESIGN CHOICE (log 86): R65 gives a unit's side band no capacity; it holds any number
of shadows, and none is evicted for want of room in it. -/
def State.shadowRed (s : State) (o : Op) (l : LaneAcc) (h : Nat) (isBf : Bool) : State :=
  let a := l.pas.headD 0
  let sec := sectorOf a
  let fmt := BitVec.ofNat 4 (leafFmt l.attr.toNat)
  let s := match s.shadows.look (holderKey h sec) with
    | some x => if x.bf16 = isBf ∧ x.fmt = fmt then s else s.roundShadow h sec
    | none => s
  let x := s.shadowAt h sec o isBf fmt (if h < 8 then s.dieView h else s.merged)
  { s with shadows := s.shadows.put (holderKey h sec) (x.add (a % 64) (l.arg.getD 0 0)) }

/-- R64: operations through the FP32 shadow. -/
def AtomOp.shadowed : AtomOp → Bool
  | .faddBf16x2 | .faddFp8 => true
  | _ => false

/-- R188, R190: where an atomic or reduction executes. -/
def AtomOp.unit_ (a : AtomOp) (sc : Scope) (sp : Space) : AtomUnit :=
  match sp with
  | .loc _ => .bank
  | .host | .window _ => .agent
  | _ => match sc with
    | .group | .workgroup => if a.shadowed then .slice else .l1
    | .gang => if a.shadowed then .slice else .cluster
    | .die => .slice
    | _ => .home

/-- R188: the holder whose tokens an atomic or reduction of a unit needs. -/
def Op.holder (o : Op) (u : AtomUnit) (sec : Nat) : Nat :=
  match u with
  | .home => unitId sec
  | .agent => agentId
  | _ => dieOf o.core

/-- R187, R188, R190: one lane of an atomic or reduction at its unit, where it can execute now: the old value in words, none of them
where the sector is uncorrectable. -/
def State.atomLane (s : State) (o : Op) (a : AtomOp) (l : LaneAcc) : Option (List Word × State) :=
  let sec := sectorOf (l.pas.headD 0)
  let words (n : Nat) : List Word := toWords (toBytes a.bytes n)
  let cells (n : Nat) : List (Nat × Byte) := l.pas.zip (toBytes a.bytes n)
  let d := dieOf o.core
  let u := a.unit_ o.scope l.space
  match u with
  | .bank =>
    match l.space with
    | .loc c =>
      if s.locBad c o.ctx l.pas then some ([], s)
      else
        let old := ofBytes (l.pas.map fun x => s.lsGet c o.ctx x)
        some (words old, s.lsPut c o.ctx (cells (a.new old l.arg)))
    | _ => none
  | .l1 | .cluster | .slice =>
    let k := s.core o.core
    let held := decide (u = .l1) && l.pas.all fun x => (k.l1Byte o.ctx x).isSome
    let drop (s : State) : State := s.setCore o.core ((s.core o.core).l1Drop o.ctx l.pas)
    if held || (s.tok d sec).canRead then
      if s.badSectors.contains sec || (if held then s.sramBad 1 o.core l.pas else s.sramBad 2 d l.pas) then some ([], s)
      else
        match a with
        | .faddBf16x2 => some (words 0, (drop s).shadowRed o l d true)
        | .faddFp8 => some (words 0, (drop s).shadowRed o l d false)
        | _ =>
          let s := s.roundShadow d sec
          let old := ofBytes (l.pas.map fun x => if held then (k.l1Byte o.ctx x).getD 0 else s.dieView d x)
          let s := s.enterPending o.core o.ctx o.uid o.op false o.pageAt (cells (a.new old l.arg))
          some (words old, if u = .l1 then s else drop s)
    else none
  | .home | .agent =>
    let h := o.holder u sec
    if (s.tok h sec).canWrite && (u = .home || decide (s.hostLines.get 0 sec = 2))
        && !(s.die d).pw.any (fun w => w.holds o.uid o.op && w.bytes.any fun p => l.pas.contains p.1) then
      if s.badSectors.contains sec then some ([], s)
      else
        let s := s.setCore o.core ((s.core o.core).l1Drop o.ctx l.pas)
        match a with
        | .faddBf16x2 => some (words 0, s.shadowRed o l h true)
        | .faddFp8 => some (words 0, s.shadowRed o l h false)
        | _ =>
          let s := s.roundShadow h sec
          let old := ofBytes (l.pas.map s.merged)
          let s := s.mergeBytes (cells (a.new old l.arg))
          some (words old, s.setTok h sec { s.tok h sec with dirty := true })
    else none

/-! ### Performing operations -/

/-- Records a lane's value. -/
def State.setLane (s : State) (id i : Nat) (v : List Word) : State :=
  match s.ops.look id with
  | some o => { s with ops := s.ops.put id { o with lanes := o.lanes.mapIdx fun j l => if j = i then { l with val := some v } else l } }
  | none => s

/-- R185: a release store may be performed. -/
def State.releaseReady (s : State) (o : Op) : Bool :=
  s.valuesHeld o.uid o.op && s.writesPerformed o.uid o.core o.ctx o.scope o.op

/-- Performs lane `i` of an operation where the rules let it be performed now. -/
def State.performLane (s : State) (id : Nat) (i : Nat) : State :=
  match s.ops.look id with
  | none => s
  | some o =>
    match o.lanes[i]? with
    | none => s
    | some l =>
      if l.val.isSome || s.heldBack o l then s
      else
        match o.kind with
        | .load _ _ _ | .ldx _ _ | .mperm | .pref =>
          let s := s.roundFor o l
          match s.readLane o l with
          | some (v, s) => s.setLane id i (toWords v)
          | none => s
        | .atomic a _ ord =>
          let s := if ord then s.flushFor o.core o.ctx o.scope else s
          if ord && !s.releaseReady o then s
          else match s.atomLane o a l with
            | some (v, s) => s.setLane id i v
            | none => s
        | _ => s

/-- R183, R185: a store that had to wait is performed as a whole. -/
def State.performStore (s : State) (id : Nat) : State :=
  match s.ops.look id with
  | none => s
  | some o =>
    match o.kind with
    | .store _ rel =>
      let s := if rel then s.flushFor o.core o.ctx o.scope else s
      if o.performedLanes || o.lanes.any (s.heldBack o) || (rel && !s.releaseReady o) then s
      else
        let s := s.enterStore o
        { s with ops := s.ops.put id { o with lanes := o.lanes.map fun l => { l with val := some [] } } }
    | _ => s

/-- Performs what can be performed of an operation: lanes in ascending order (R187). -/
def State.performOp (s : State) (id : Nat) : State :=
  match s.ops.look id with
  | none => s
  | some o => match o.kind with
    | .store _ _ => s.performStore id
    | _ => (List.range o.lanes.length).foldl (fun s i => s.performLane id i) s

/-- What a holder does with the tokens that it has: a die's pending writes to the sector merge (R314), the operations that wait for the sector
are performed, in order, and a miss whose need is met ends (R313). -/
def State.useTokens (s : State) (h sec : Nat) : State :=
  let s := if h < 8 then s.mergeSector h sec else s
  let ids := (s.ops.filter fun p => p.2.lanes.any fun l => l.val.isNone && l.pas.any fun a => decide (sectorOf a = sec)).map Prod.fst
  let s := ids.foldl (fun s id => s.performOp id) s
  let s := if h < 8 then s.mergeSector h sec else s
  match s.missOf h sec with
  | some (id, m) => if s.needMet m then s.endMiss id else s
  | none => s

/-- R315, R318: a holder that has used its tokens hands them on under its ACT, or gives up those that no line keeps. -/
def State.passTokens (s : State) (h sec : Nat) : State :=
  let s := s.handOn h sec
  if h < 8 then s.releaseBuffer h sec else s

end Sys2Proof.Machine
end

