-- ==== Sys2Proof/Machine/Access.lean ====
section
/-! DEFINITION. How a memory instruction issues (R20, R166, R177, R178, R185): its lanes' addresses resolved, the waits for an earlier
acquire and for page walks, the lowest cause of its lanes, and then its outstanding operation with the misses it needs. -/

namespace Sys2Proof.Machine

/-- A lane's address, resolved. -/
structure Ref where
  lane : Nat
  va : Nat
  res : Res
deriving Repr

/-- What an access meets before it may be made. -/
inductive Gate where
  | walk (pages : List Nat)
  | trap (cause : BitVec 8) (mask : Mask) (addrs : SMap Dword)
  | go
deriving Repr

/-- R166: the lowest memory-class cause that a lane's access takes at issue: kind 7 of a load or an atomic is deferred. -/
def Ref.cause (access : Nat) (r : Ref) : Option Nat :=
  leastBy id ((r.res.kinds.filter fun k => decide (k ≠ 7 ∨ access = 1)).map fun k => 0x40 + 8 * k + access)

/-- R20: the lowest cause of an instruction's lanes, in the lanes that have it; pages not yet translated come first. -/
def gateOf (access : Nat) (rs : List Ref) : Gate :=
  let pages := (rs.filterMap fun r => r.res.wait).eraseDups
  if pages ≠ [] then .walk pages
  else match leastBy id (rs.filterMap (Ref.cause access)) with
    | none => .go
    | some c =>
      let hit := rs.filter fun r => decide (r.cause access = some c)
      .trap (BitVec.ofNat 8 c) (maskOf (hit.map fun r => r.lane)) (hit.map fun r => (r.lane, BitVec.ofNat 64 r.va))

/-- The faults with which walks have ended, once an instruction has met them. -/
def State.dropFaults (s : State) (c ctx : Nat) (rs : List Ref) : State :=
  let k := s.core c
  if k.faults.isEmpty then s
  else s.setCore c { k with faults := k.faults.filter fun w =>
    !(decide (w.ctx = ctx) && rs.any fun r => decide (pageOf r.va = w.page)) }

/-- The translations that an access uses become the most recently used. -/
def State.useTlbs (s : State) (c ctx : Nat) (rs : List Ref) : State :=
  ((rs.filterMap fun r => r.res.page).eraseDups).foldl (fun s p => s.tlbUse c ctx p) s

/-- R351: marks the pages that an access writes. -/
def State.dirtyPages (s : State) (c ctx : Nat) (rs : List Ref) : State :=
  ((rs.filterMap fun r => r.res.page).eraseDups).foldl (fun s p => s.markDirty c ctx p) s

/-- R354: a split waits for the walks of its pages. -/
def Iss.awaitWalks (I : Iss) (s : State) (pages : List Nat) (m : Bool) : State :=
  let s := pages.foldl (fun s p => if s.pageKnown I.c I.gr.ctx p then s else s.startWalk (dieOf I.c) I.gr.ctx p none) s
  s.setGrp I.c I.g (I.gr.hold I.k (.walk pages) m)

/-- R185, R177: a memory instruction waits for its split's acquires, then has its operands and its addresses checked. -/
def Iss.access (I : Iss) (s : State) (m : Bool) (ops : List Opd) (access : Nat) (rs : List Ref)
    (go : State → State) : State :=
  if I.sp.acq ≠ [] then s.setGrp I.c I.g (I.gr.hold I.k .acquire m)
  else match I.gr.check false ops with
    | some c => I.trap s c
    | none => match gateOf access rs with
      | .walk pages => I.awaitWalks s pages m
      | .trap c k a => I.trapLanes (s.dropFaults I.c I.gr.ctx rs) c k a
      | .go => go ((s.dropFaults I.c I.gr.ctx rs).useTlbs I.c I.gr.ctx rs)

/-- The addresses of lanes through an address operand. -/
def Iss.refs (I : Iss) (s : State) (code : Nat) (ls : List Nat) (size : Nat) (w : Want) : List Ref :=
  ls.map fun L => let va := (I.gr.rd64 code L).toNat; ⟨L, va, s.resolve I.c I.gr L va size w⟩

/-- R178: the lanes that access memory: one where the destination is an s register. -/
def Iss.accessLanes (I : Iss) (d : Nat) : List Nat := if 96 ≤ d then [lowest I.sp.mask] else lanes I.sp.mask

/-- A lane's access, not performed; one whose translation cannot be corrected (R166, kind 7) gives no value. -/
def Ref.acc (r : Ref) (arg : List Word) : LaneAcc :=
  { lane := r.lane, va := BitVec.ofNat 64 r.va, space := r.res.space, pas := r.res.pas, attr := r.res.attr, arg := arg,
    val := if r.res.kinds.contains 7 then some [] else none }

/-- An operation of a split, numbered by the serial. -/
def Iss.op (I : Iss) (s : State) (kind : OpKind) (sc : Scope) (d nd : Nat) (mask : Mask) (hint : BitVec 2) (ls : List LaneAcc) : Op :=
  { op := s.serial, uid := I.gr.uid, core := I.c, ctx := I.gr.ctx, kind := kind, scope := sc, d := BitVec.ofNat 7 d, nd := nd,
    mask := mask, lanes := ls, hint := hint, acked := false, sup := I.gr.sup, clk := s.clkOf I.c }

def State.addOp (s : State) (o : Op) : State := { s with ops := s.ops.put o.op o, serial := s.serial + 1 }

/-- The residency class of an access: its page's, or normal for the stack aperture, which has no page (R346). -/
def LaneAcc.cls (l : LaneAcc) : Nat := if l.space = .stack then 1 else leafClass l.attr.toNat

/-- R313, R344, R348: the L2 lines and the misses of one lane's access, where the L1 does not answer it; a miss of its `first` request prefetches. -/
def State.fetchLane (s : State) (o : Op) (first write : Bool) (l : LaneAcc) : State :=
  match l.space with
  | .loc _ | .window _ => s
  | sp =>
    let d := dieOf o.core
    let page := if sp = .global then some (pageOf l.va.toNat) else none
    if !write && !o.scope.wide && l.pas.all (fun a => ((s.core o.core).l1Byte o.ctx a).isSome) then s
    else
      let secs := (l.pas.map sectorOf).eraseDups
      let missed := if first then secs.filter fun x => !(if write then (s.tok d x).canWrite else (s.tok d x).canRead) else []
      let s := ((l.pas.map fun a => a / 256).eraseDups).foldl (fun s line => s.allocLine d o.ctx line l.cls o.hint) s
      let s := secs.foldl (fun s x => s.missFor o.core o.ctx x write page l.attr) s
      match missed, page.bind (s.tlbFind o.core o.ctx) with
      | x :: _, some e =>
        let r := s.prefetchAfter o.core o.ctx (x / 4) l.va.toNat o.uid e
        if r.2 = 0 then r.1 else r.1.modUid o.uid (iter Group.drop r.2)
      | _, _ => s

/-- R325: a home atomic unit or the agent that lacks a sector's tokens collects them. -/
def State.unitMiss (s : State) (h sec : Nat) (o : Op) : State :=
  if (s.tok h sec).canWrite then s else s.allocMiss h sec true o.core o.ctx

/-- R188: the misses of an atomic's lane, at the unit that executes it. -/
def State.fetchAtom (s : State) (o : Op) (first : Bool) (a : AtomOp) (l : LaneAcc) : State :=
  let sec := sectorOf (l.pas.headD 0)
  match a.unit_ o.scope l.space with
  | .bank => s
  | .home => s.unitMiss (unitId sec) sec o
  | .agent => s.unitMiss agentId sec o
  | _ => s.fetchLane o first true l

/-- The misses that an operation's unperformed lanes need, where nothing earlier holds them back. -/
def State.fetchOp (s : State) (id : Nat) : State :=
  match s.ops.look id with
  | none => s
  | some o =>
    let due := o.lanes.zipIdx.filter fun p => p.1.val.isNone && !s.heldBack o p.1
    let s := due.foldl (fun s p =>
      let first := !o.asked.contains p.2
      match o.kind with
      | .load _ _ _ | .ldx _ _ | .mperm | .pref => s.fetchLane o first false p.1
      | .atomic a _ _ => s.fetchAtom o first a p.1
      | .store _ _ => s.fetchLane o first true p.1
      | _ => s) s
    { s with ops := s.ops.put id { o with asked := o.asked ++ (due.map Prod.snd).filter fun i => !o.asked.contains i } }

/-- The split's last memory instruction is no longer a FENCE or an ATOM (R189). -/
def Group.touched (g : Group) (k : Nat) : Group := g.modSlot k fun x => { x with afterFence := false, lastAtom := none }

/-- R185: the split's later memory instructions wait for an acquire. -/
def Group.acquiring (g : Group) (k id : Nat) (acq : Bool) : Group :=
  if acq then g.modSlot k fun x => { x with acq := x.acq ++ [id] } else g

/-- R9, R70: a read that leaves its results pending: the operation is recorded, its misses go out, and the split goes on. -/
def Iss.issueRead (I : Iss) (s : State) (m : Bool) (o : Op) (acq : Bool) : State :=
  let s := (s.addOp o).fetchOp o.op
  match s.grp I.c I.g with
  | some g =>
    s.setGrp I.c I.g
      ((((g.setPend o.d.toNat o.nd).touched I.k).acquiring I.k o.op acq).retire I.k (I.sp.pc + 2) m)
  | none => s

/-- R189: the split that has just issued an ATOM, where it still stands alone, keeps its number. -/
def State.noteAtom (s : State) (I : Iss) (id : Nat) : State :=
  match s.grp I.c I.g with
  | some g => s.setGrp I.c I.g (g.modSlot I.k fun x => if x.mask = I.sp.mask then { x with lastAtom := some id } else x)
  | none => s

/-- A write that leaves nothing pending in the group. -/
def Iss.issueWrite (I : Iss) (s : State) (m : Bool) (o : Op) : State :=
  let s := ((s.addOp o).fetchOp o.op).performStore o.op
  match s.grp I.c I.g with
  | some g => s.setGrp I.c I.g ((g.touched I.k).retire I.k (I.sp.pc + 2) m)
  | none => s

/-- R80: registers of a size code, and its bytes. -/
def sizeRegs (z : BitVec 3) : Nat := if z.toNat = 4 then 4 else if z.toNat = 3 then 2 else 1
def sizeBytes (z : BitVec 3) : Nat := 2 ^ z.toNat

/-- What a load and a store do with a page. -/
def reading : Want := ⟨true, false, false, false⟩
def writing : Want := ⟨false, true, false, false⟩

/-! ### Formats of pages (R52 to R54, R181) -/

/-- R52, R54: whether an attribute word's format and geometry go together. -/
def formatOk (attr : Nat) : Bool :=
  match leafGeom attr with
  | 0 => decide (leafFmt attr ≤ 12)
  | 1 | 2 => decide (leafFmt attr = 11)
  | _ => false

/-- R181: the alignment that LDX asks of an address. -/
def ldxAlign (attr : Nat) : Nat :=
  match leafGeom attr with
  | 0 => if leafFmt attr = 11 then 1 else fmtBits (leafFmt attr) / 8
  | 1 => 16
  | _ => 64

/-- R181: the addresses of the bytes that LDX reads: the element, or the element's byte and its scale. -/
def ldxBytes (attr va e : Nat) : List Nat :=
  match leafGeom attr with
  | 0 => if leafFmt attr = 11 then [va + e / 2] else fromN va (fmtBits (leafFmt attr) / 8)
  | 1 => [va + e / 2, va + 256 + e / 32]
  | _ => [va + e / 2, va + 256 + e / 8]

/-- R181: the element that the bytes read by LDX decode to. -/
def ldxValue (attr e : Nat) (bytes : List Byte) : List Word :=
  let nib (b : Byte) : Nat := if e % 2 = 0 then b.toNat % 16 else b.toNat / 16
  let elem := fp4e2m1.decode (nib (bytes.headD 0))
  let scale := (bytes.getD 1 0).toNat
  let fmt := leafFmt attr
  match leafGeom attr with
  | 0 =>
    if fmt = 11 then [wf32 elem]
    else if fmt = 12 then toWords bytes
    else match floatFmt fmt, intFmt fmt with
      | some F, _ => [wf32 (F.decode (ofBytes bytes))]
      | none, some (w, sg) => [BitVec.ofNat 32 (placeInt w sg (intValue w sg (ofBytes bytes)))]
      | none, none => [0]
  | 1 => [wf32 ((e8m0 scale).mul elem)]
  | _ => [wf32 ((e3m5 scale).mul elem)]

/-- R181: the resolution of a lane of LDX: every page that its bytes lie in must translate, be readable and carry a valid format. -/
def State.resolveLdx (s : State) (c : Nat) (g : Group) (L va e : Nat) (wide : Bool) : Res :=
  let base := s.resolve c g L va 1 reading
  if va / 2 ^ 60 = 14 ∨ va / 2 ^ 60 = 15 then { base with kinds := [2] }
  else if base.wait.isSome ∨ base.kinds ≠ [] then base
  else
    let attr := base.attr.toNat
    if !formatOk attr || decide (wide ≠ (decide (leafGeom attr = 0 ∧ leafFmt attr = 12))) then { base with kinds := [2] }
    else
      let parts := (ldxBytes attr va e).map fun a => s.resolve c g L a 1 reading
      { base with
        wait := parts.findSome? fun r => r.wait
        kinds := alignKinds va (ldxAlign attr)
          ++ parts.flatMap fun r => r.kinds ++ if r.page.isSome && r.kinds.isEmpty && !formatOk r.attr.toNat then [2] else []
        pas := parts.flatMap fun r => r.pas }

end Sys2Proof.Machine
end

