-- ==== Sys2Proof/Machine/Control.lean ====
section
/-! DEFINITION. MOVI and ADDI (R116, R117), which engine programs may contain too, and control flow, divergence, traps and special
registers (R139 to R163). -/

namespace Sys2Proof.Machine

open Host (Outcome)

/-- R116: d := sext(imm16). -/
def execMovi (m : Bool) (i : BitVec 16) (d : BitVec 7) (s : State) : Outcome State Fault Refusal :=
  onBoth s
    (fun I => match I.gr.check false [opd d] with
      | some c => I.trap s c
      | none => I.done s (I.gr.wr d.toNat I.sp.mask fun _ => i.signExtend 32) 2 m)
    (fun c cp => seqRun s c cp m [opd d] fun q => s.setSeq c cp (q.wr d.toNat (i.signExtend 32)).next)

/-- R117: d := (a + sext(imm9))[31:0]. -/
def execAddi (m : Bool) (i : BitVec 9) (a d : BitVec 7) (s : State) : Outcome State Fault Refusal :=
  onBoth s
    (fun I => match I.gr.check false [opd d, opd a] with
      | some c => I.trap s c
      | none => I.done s (I.gr.wr d.toNat I.sp.mask fun L => I.gr.rd a.toNat L + i.signExtend 32) 2 m)
    (fun c cp => seqRun s c cp m [opd d, opd a] fun q =>
      s.setSeq c cp (q.wr d.toNat (q.rd a.toNat + i.signExtend 32)).next)

/-! ### Branches, calls and loops -/

/-- The end of a control instruction that does not divide its split. -/
def Iss.jump (I : Iss) (s : State) (pc : Pc) (m : Bool) : State := s.setGrp I.c I.g (I.gr.retire I.k pc m)

/-- R140: BRA. -/
def execBra (m : Bool) (o : BitVec 23) (s : State) : Outcome State Fault Refusal :=
  onBoth s (fun I => I.jump s (addPc I.sp.pc o.toInt) m)
    (fun c cp => seqRun s c cp m [] fun q => s.setSeq c cp { q with pc := addPc q.pc o.toInt, wait := .none })

/-- R142: the group after its split divides. -/
def Iss.split (I : Iss) (s : State) (parts : List (Pc × Mask)) (keep : Mask) (m : Bool) : State :=
  s.setGrp I.c I.g (((((I.gr.tick (some I.k)).divide I.k parts keep)).mark m).settle)

/-- R141: BRP. -/
def execBrp (m : Bool) (o : BitVec 19) (n : BitVec 1) (p : BitVec 3) (s : State) : Outcome State Fault Refusal :=
  onSplit s fun I =>
    let t : Mask := (I.gr.pget p.toNat ^^^ (if n = 1 then BitVec.allOnes 32 else 0)) &&& I.sp.mask
    let e : Mask := I.sp.mask &&& ~~~ t
    let pt := addPc I.sp.pc o.toInt
    let pe := I.sp.pc + 2
    if e = 0 then I.jump s pt m
    else if t = 0 ∨ pt = pe then I.jump s pe m
    else I.split s (if pt.toNat < pe.toNat then [(pt, t), (pe, e)] else [(pe, e), (pt, t)]) 0 m

/-- R144, R153: the entry at a depth of the split's return stack: its frame, or sret in a handler. -/
def Iss.entry (I : Iss) (s : State) (depth : Nat) : Word :=
  if I.gr.sup then BitVec.ofNat 32 (s.rdD (dieOf I.c) (s.frameBase I.gr.ctx I.gr.block + 0x440 + 4 * depth) 4)
  else SMap.get 0 (I.gr.frames.get [] I.sp.frame) depth

/-- R144: CALL. -/
def execCall (m : Bool) (o : BitVec 23) (s : State) : Outcome State Fault Refusal :=
  onSplit s fun I =>
    if 16 ≤ I.sp.depth then I.trap s 0x21
    else
      let ret : Word := (I.sp.pc + 2).setWidth 32
      let s := if I.gr.sup then s.hwWriteN (s.frameBase I.gr.ctx I.gr.block + 0x440 + 4 * I.sp.depth) 4 ret.toNat else s
      let gr : Group := if I.gr.sup then I.gr
        else { I.gr with frames := I.gr.frames.put I.sp.frame (SMap.put (I.gr.frames.get [] I.sp.frame) I.sp.depth ret) }
      s.setGrp I.c I.g ((gr.modSlot I.k fun x => { x with depth := x.depth + 1 }).retire I.k (addPc I.sp.pc o.toInt) m)

/-- R145: RET. -/
def execRet (m : Bool) (s : State) : Outcome State Fault Refusal :=
  onSplit s fun I =>
    if I.sp.depth = 0 then I.trap s 0x22
    else
      let pc : Pc := (I.entry s (I.sp.depth - 1)).setWidth 17
      s.setGrp I.c I.g ((I.gr.modSlot I.k fun x => { x with depth := x.depth - 1 }).retire I.k pc m)

/-- R146: the target of a table index. -/
def Iss.tableTarget (I : Iss) (s : State) (i : Nat) : Pc :=
  addPc I.sp.pc ((s.core I.c).pcWord (I.sp.pc.toNat + 2 + 2 * i))

/-- R146: the target sets, in ascending order of target. -/
def groupTargets (l : List (Pc × Nat)) : List (Pc × Mask) :=
  l.foldl (fun r p => SMapPut r p.1 p.2) []
where
  /-- Adds a lane to the set of its target. -/
  SMapPut : List (Pc × Mask) → Pc → Nat → List (Pc × Mask)
    | [], pc, L => [(pc, 1 <<< L)]
    | (q, k) :: t, pc, L =>
      if pc = q then (q, k ||| (1 <<< L)) :: t
      else if pc.toNat < q.toNat then (pc, 1 <<< L) :: (q, k) :: t
      else (q, k) :: SMapPut t pc L

/-- R146, R147: JTAB. The out-of-range split stands at the JTAB and takes cause 0x20 in the same issue slot. -/
def execJtab (m : Bool) (n : BitVec 9) (a : BitVec 7) (s : State) : Outcome State Fault Refusal :=
  onSplit s fun I =>
    match I.gr.check false [opd a] with
    | some c => I.trap s c
    | none =>
      if !inRegion (s.region I.c I.gr) (I.sp.pc.toNat + 2) (2 * n.toNat) then I.trap s 0x07
      else
        let idx (L : Nat) : Int := (I.gr.rd a.toNat L).toInt
        let ok (L : Nat) : Bool := decide (0 ≤ idx L) && decide (idx L < n.toNat)
        let good := (lanes I.sp.mask).filter ok
        let bad := maskOf ((lanes I.sp.mask).filter fun L => !ok L)
        let sets := groupTargets (good.map fun L => (I.tableTarget s (idx L).toNat, L))
        match sets with
        | [] => I.trap s 0x20
        | (t, _) :: rest =>
          if bad = 0 ∧ rest = [] then I.jump s t m
          else if bad = 0 then I.split s sets 0 m
          else
            let lo := sets.filter fun p => decide (p.1.toNat < I.sp.pc.toNat)
            let hi := sets.filter fun p => decide (I.sp.pc.toNat ≤ p.1.toNat)
            let g := (I.gr.tick (some I.k)).divide I.k (lo ++ [(I.sp.pc, bad)] ++ hi) bad
            match g.slots.find? fun p => p.2.mask = bad with
            | some (k, _) => (s.setGrp I.c I.g (g.settleBut k)).raise I.c I.g k 0x20 bad [] I.sp.pc false false
            | none => s.setGrp I.c I.g g

/-- R148: LOOP: the counter's new value and whether the branch is taken. -/
def loopStep (c : Word) : Word × Bool := if c = 0 then (0, false) else (c - 1, decide (c - 1 ≠ 0))

/-- R148: LOOP. -/
def execLoop (m : Bool) (o : BitVec 18) (c : BitVec 5) (s : State) : Outcome State Fault Refusal :=
  onBoth s
    (fun I =>
      match I.gr.check false [(96 + c.toNat, 1)] with
      | some x => I.trap s x
      | none =>
        let r := loopStep (I.gr.sget c.toNat)
        s.setGrp I.c I.g
          ((I.gr.sset c.toNat r.1).retire I.k (if r.2 then addPc I.sp.pc (-(o.toNat : Int)) else I.sp.pc + 2) m))
    (fun k cp => seqRun s k cp m [(96 + c.toNat, 1)] fun q =>
      let r := loopStep (q.rd (96 + c.toNat))
      s.setSeq k cp { q.wr (96 + c.toNat) r.1 with
        pc := if r.2 then addPc q.pc (-(o.toNat : Int)) else q.pc + 2, wait := .none })

/-- R149, R157: EXIT. -/
def execExit (m : Bool) (s : State) : Outcome State Fault Refusal :=
  onSplit s fun I =>
    if I.gr.sup then s.leaveHandler I.c I.g true m
    else
      let g := I.gr.tick none
      s.setGrp I.c I.g
        ((({ g with
          slots := g.slots.erase I.k
          exited := g.exited ||| I.sp.mask
          trigUpto := if I.sp.mask &&& ~~~ g.triggered = 0 then g.trigUpto else s.serial } : Group).mark m).settle)

/-- R151: no effect. -/
def execNop32 (m : Bool) (s : State) : Outcome State Fault Refusal := lane 2 m [] (fun g _ => g) s

/-- Parks the group after the instruction (R151, R186); a marker takes effect when the park ends. -/
def Iss.parkAs (I : Iss) (s : State) (p : Park) (m : Bool) : State :=
  s.setGrp I.c I.g { I.gr.retire I.k (I.sp.pc + 2) false with park := p, parkMark := m }

/-- The end of a park (R11): a marker that came with it parks the group while its pending count is not zero. -/
def Group.unpark (g : Group) : Group := { g with park := .run, parkMark := false }.mark g.parkMark

/-- R151: WAITALL. -/
def execWaitall (m : Bool) (s : State) : Outcome State Fault Refusal := onSplit s fun I => I.parkAs s .waitall m

/-- R151: YIELD notes the ready groups of its quarter. -/
def execYield (m : Bool) (s : State) : Outcome State Fault Refusal :=
  onSplit s fun I =>
    let noted := ((s.core I.c).groups.filter fun p =>
      decide (p.1 / 12 = I.g / 12) && decide (p.1 ≠ I.g) && s.groupReady I.c p.2).map fun p => p.2.uid
    I.parkAs s (.yield noted (s.clkOf I.c + 64)) m

/-- R158: TRAP. -/
def execTrap (_m : Bool) (i : BitVec 5) (s : State) : Outcome State Fault Refusal :=
  onSplit s fun I => s.raise I.c I.g I.k (0xC0 + i.setWidth 8) I.sp.mask [] (I.sp.pc + 2) true

/-- R159: RFT. -/
def execRft (m : Bool) (s : State) : Outcome State Fault Refusal :=
  onSplit s fun I => if I.gr.sup then s.leaveHandler I.c I.g false m else I.trap s 0x0A

/-! ### Special registers (R13 to R22, R160) -/

/-- R13: whether a selector names a register, and whether it is 64 bits wide. -/
def selWide (e : Nat) : Option Bool :=
  if e = 0x11 ∨ e = 0x13 then some true
  else if e ≤ 0x04 ∨ (0x08 ≤ e ∧ e ≤ 0x0E) ∨ e = 0x10 ∨ e = 0x12 then some false
  else none

/-- R17: `lscap`. -/
def State.lscap (s : State) (c : Nat) : Nat := if (s.core c).stacked && !(s.core c).split then 0x200000 else 0x100000

/-- R13 to R20: the value a lane reads. -/
def State.special (s : State) (c : Nat) (g : Group) (e L : Nat) : Dword :=
  let wid := ((s.wgOf c g.wg).map fun w => w.wid g.gid L).getD 0
  match e with
  | 0x00 => BitVec.ofNat 64 L
  | 0x01 => BitVec.ofNat 64 g.gid
  | 0x02 => BitVec.ofNat 64 (s.wgSize c g.wg)
  | 0x03 => wid &&& 0xFFFFFFFF
  | 0x04 => wid >>> 32
  | 0x08 => BitVec.ofNat 64 (g.sat.toNat + g.sup.toNat * 2 ^ 31)
  | 0x09 => BitVec.ofNat 64 (s.core c).narrow.toNat
  | 0x0A => BitVec.ofNat 64 (s.lscap c)
  | 0x0B => ((s.wgOf c g.wg).map fun w => BitVec.ofNat 64 (w.shrinkTarget % 64 + w.shrinkReq.toNat * 2 ^ 31)).getD 0
  | 0x0C => BitVec.ofNat 64 (s.attachFree c g.wg)
  | 0x0D => BitVec.ofNat 64 (g.ctx % 64 + (if (s.core c).split then (s.core c).half else 0) * 256)
  | 0x0E => g.pfdrop.setWidth 64
  | 0x10 => g.trapcause.setWidth 64
  | 0x11 => g.trapaddr.get 0 L
  | 0x12 => g.trapmask.setWidth 64
  | 0x13 => g.trapsplit
  | _ => 0

/-- R160, R14: GETS. -/
def execGets (m : Bool) (e : BitVec 6) (d : BitVec 7) (s : State) : Outcome State Fault Refusal :=
  onSplit s fun I =>
    match selWide e.toNat with
    | none => I.trap s 0x02
    | some w =>
      match I.gr.check (decide (0x10 ≤ e.toNat)) [(d.toNat, if w then 2 else 1)] with
      | some c => I.trap s c
      | none =>
        let v := s.special I.c I.gr e.toNat
        I.done s (if w then I.gr.wr64 d.toNat I.sp.mask v else I.gr.wr d.toNat I.sp.mask fun L => (v L).setWidth 32) 2 m

/-- R13, R14: whether SETS may write a register in a mode. -/
def selWritable (sup : Bool) (e : Nat) : Bool := decide (e = 0x08) || (sup && (decide (e = 0x0E) || decide (0x10 ≤ e)))

/-- R160: the writes of SETS; reserved and RO fields keep their value. -/
def Group.setSpecial (g : Group) (e : Nat) (k : Mask) (v : Nat → Dword) : Group :=
  let x := v (lowest k)
  match e with
  | 0x08 => { g with sat := x.getLsbD 0 }
  | 0x0E => { g with pfdrop := x.setWidth 32 }
  | 0x10 => { g with trapcause := x.setWidth 8 }
  | 0x11 => { g with trapaddr := (lanes k).foldl (fun t L => t.set 0 L (v L)) g.trapaddr }
  | 0x12 => { g with trapmask := x.setWidth 32 }
  | 0x13 => { g with trapsplit := (x &&& 0x000FFFFFFFFFFFFF) ||| (g.trapsplit &&& 0x3FF0000000000000) }
  | _ => g

/-- R160, R14: SETS. -/
def execSets (m : Bool) (e : BitVec 6) (a : BitVec 7) (s : State) : Outcome State Fault Refusal :=
  onSplit s fun I =>
    match selWide e.toNat with
    | none => I.trap s 0x02
    | some w =>
      match I.gr.check (decide (0x10 ≤ e.toNat)) [(a.toNat, if w then 2 else 1)] with
      | some c => I.trap s c
      | none =>
        if selWritable I.gr.sup e.toNat then
          let v (L : Nat) : Dword := if w then I.gr.rd64 a.toNat L else (I.gr.rd a.toNat L).setWidth 64
          I.done s (I.gr.setSpecial e.toNat I.sp.mask v) 2 m
        else I.trap s 0x06

/-- R163: HALT ends the gang's workgroups; the halt record names the issuing one. -/
def execHalt (_m : Bool) (s : State) : Outcome State Fault Refusal :=
  onSplit s fun I =>
    if I.gr.sup then
      match s.wgOf I.c I.gr.wg with
      | some w =>
        let t := s.failGang w.gang I.gr.trapcause
        { t with regs := { t.regs with halts := t.regs.halts ++ [⟨w.ctx, w.rank :: w.coords, I.gr.trapcause, I.gr.trapsplit⟩] } }
      | none => s.releaseGroup I.c I.g
    else I.trap s 0x05

end Sys2Proof.Machine
end

