-- ==== Sys2Proof/Machine/Barrier.lean ====
section
/-! DEFINITION. Barrier words and their updates (R35, R36, R191 to R194), and elastic membership (R195, R196). -/

namespace Sys2Proof.Machine

open Host (Outcome)

/-! ### Barrier words (R35) -/

/-- The core offset of barrier word `i` of a workgroup. -/
def Workgroup.barAt (w : Workgroup) (i : Nat) : Nat := w.base + 8 * i

/-- The barrier word at a core offset. -/
def Core.bar (k : Core) (off : Nat) : Dword := BitVec.ofNat 64 (ofBytes ((fromN off 8).map fun a => k.ls.get 0 a))
def Core.setBar (k : Core) (off : Nat) (x : Dword) : Core := k.lsWrite (cellsOf off 8 x.toNat)

def barExpected (x : Dword) : Nat := (x.extractLsb' 0 16).toNat
def barPending (x : Dword) : Nat := (x.extractLsb' 16 16).toNat
def barPhase (x : Dword) : BitVec 16 := x.extractLsb' 32 16
def barElastic (x : Dword) : Bool := x.getLsbD 48

/-- R194: one bank update of a word. -/
def barUpdate (x : Dword) (arrivals drops attached : Nat) : Dword :=
  let exp' : Int := (barExpected x : Int) - drops + attached
  let pnd : Int := (barPending x : Int) - arrivals + attached
  let phase := if pnd ≤ 0 then barPhase x + 1 else barPhase x
  let pending : Int := if pnd ≤ 0 then max (exp' + pnd) 1 else pnd
  x.extractLsb' 48 16 ++ phase ++ BitVec.ofInt 16 pending ++ BitVec.ofInt 16 exp'

/-- R193: wakes the splits of a group that a test accepts: each goes on after the instruction it waits in. -/
def Group.wake (g : Group) (f : Split → Bool) : Group :=
  let hit := (g.slots.any fun p => f p.2) || g.spill.any f
  if !hit then g
  else
    let up (x : Split) : Split := if f x then { x with pc := x.pc + 2, wait := .none, waitMark := false } else x
    let marked := (g.slots.any fun p => f p.2 && p.2.waitMark) || g.spill.any fun x => f x && x.waitMark
    (({ g with slots := g.slots.mapVals fun _ x => up x, spill := g.spill.map up } : Group).mark marked).settle

/-- R192: whether a split waits for a phase that the word has left. -/
def Core.phaseOver (k : Core) (x : Split) : Bool :=
  match x.wait with
  | .phase off ph => decide (barPhase (k.bar off) ≠ ph)
  | _ => false

/-- R193: every split of a core whose phase is over resumes. -/
def Core.wakeBars (k : Core) : Core := { k with groups := k.groups.mapVals fun _ g => g.wake k.phaseOver }

/-- R191, R192: the causes of a barrier instruction: 0x80, and 0x81 for an arrival. -/
def State.barCheck (s : State) (c w i : Nat) (arrive : Bool) : Option (BitVec 8) :=
  match s.wgOf c w with
  | none => some 0x80
  | some x =>
    if x.bars ≤ i then some 0x80
    else if arrive && decide (barExpected ((s.core c).bar (x.barAt i)) = 0) then some 0x81
    else none

def State.barWord (s : State) (c w i : Nat) : Dword := ((s.wgOf c w).map fun x => (s.core c).bar (x.barAt i)).getD 0
def State.barOff (s : State) (c w i : Nat) : Nat := ((s.wgOf c w).map fun x => x.barAt i).getD 0

/-- R193: an arrival on its way to the bank. -/
def State.arrive (s : State) (c : Nat) (a : Arrival) : State :=
  s.setCore c { s.core c with arrivals := (s.core c).arrivals ++ [a] }

/-- R192: BAR.ARV. -/
def execBarArv (m : Bool) (i d : BitVec 7) (s : State) : Outcome State Fault Refusal :=
  onBoth s
    (fun I => match I.gr.check false [opd d] with
      | some c => I.trap s c
      | none => match s.barCheck I.c I.gr.wg i.toNat true with
        | some c => I.trap s c
        | none =>
          let ph := barPhase (s.barWord I.c I.gr.wg i.toNat)
          I.done (s.arrive I.c ⟨s.barOff I.c I.gr.wg i.toNat, 1, 0, 0, I.gr.uid, I.gr.ctx, s.serial⟩)
            (I.gr.wr d.toNat I.sp.mask fun _ => ph.setWidth 32) 2 m)
    (fun c cp => seqRun s c cp m [opd d] fun q =>
      match s.barCheck c q.wg i.toNat true with
      | some x => s.seqStop c cp x
      | none =>
        (s.arrive c ⟨s.barOff c q.wg i.toNat, 1, 0, 0, q.owner.getD 0, q.ctx, 0⟩).setSeq c cp
          (q.wr d.toNat ((barPhase (s.barWord c q.wg i.toNat)).setWidth 32)).next)

/-- R192: BAR.ARVDROP. DESIGN CHOICE (log 88): 0x82 is tested against the word's expected count at issue, drops on their way to the bank not
counted. -/
def execBarArvdrop (m : Bool) (i d : BitVec 7) (s : State) : Outcome State Fault Refusal :=
  onSplit s fun I =>
    match I.gr.check false [opd d] with
    | some c => I.trap s c
    | none => match s.barCheck I.c I.gr.wg i.toNat true with
      | some c => I.trap s c
      | none =>
        let x := s.barWord I.c I.gr.wg i.toNat
        if barExpected x ≤ 1 then I.trap s 0x82
        else
          I.done (s.arrive I.c ⟨s.barOff I.c I.gr.wg i.toNat, 1, 1, 0, I.gr.uid, I.gr.ctx, s.serial⟩)
            (I.gr.wr d.toNat I.sp.mask fun _ => (barPhase x).setWidth 32) 2 m

/-- R192: the split waits, its PC at the instruction, until the phase of a word differs. -/
def Iss.awaitPhase (I : Iss) (s : State) (off : Nat) (ph : BitVec 16) (m : Bool) : State :=
  s.setGrp I.c I.g (((I.gr.tick (some I.k)).hold I.k (.phase off ph) m).settle)

/-- R192: BAR.WAIT. -/
def execBarWait (m : Bool) (i a : BitVec 7) (s : State) : Outcome State Fault Refusal :=
  onSplit s fun I =>
    match I.gr.check false [opd a] with
    | some c => I.trap s c
    | none => match s.barCheck I.c I.gr.wg i.toNat false with
      | some c => I.trap s c
      | none =>
        let ph : BitVec 16 := (I.gr.rd a.toNat (lowest I.sp.mask)).setWidth 16
        if barPhase (s.barWord I.c I.gr.wg i.toNat) ≠ ph then I.done s I.gr 2 m
        else I.awaitPhase s (s.barOff I.c I.gr.wg i.toNat) ph m

/-- R192: BAR.SYNC. -/
def execBarSync (m : Bool) (i : BitVec 7) (s : State) : Outcome State Fault Refusal :=
  onSplit s fun I =>
    match s.barCheck I.c I.gr.wg i.toNat true with
    | some c => I.trap s c
    | none =>
      let off := s.barOff I.c I.gr.wg i.toNat
      I.awaitPhase (s.arrive I.c ⟨off, 1, 0, 0, I.gr.uid, I.gr.ctx, s.serial⟩) off (barPhase (s.barWord I.c I.gr.wg i.toNat)) m

/-- R191: BINIT. -/
def execBinit (m : Bool) (i a : BitVec 7) (s : State) : Outcome State Fault Refusal :=
  onSplit s fun I =>
    match I.gr.check false [opd a] with
    | some c => I.trap s c
    | none => match s.barCheck I.c I.gr.wg i.toNat false with
      | some c => I.trap s c
      | none =>
        let x := s.barWord I.c I.gr.wg i.toNat
        if barPending x ≠ barExpected x then I.trap s 0x83
        else
          let v := I.gr.rd a.toNat (lowest I.sp.mask)
          let n : BitVec 16 := v.setWidth 16
          let y : Dword := (BitVec.ofBool (v.getLsbD 16)).setWidth 16 ++ barPhase x ++ n ++ n
          I.done (s.setCore I.c ((s.core I.c).setBar (s.barOff I.c I.gr.wg i.toNat) y)) I.gr 2 m

/-! ### Elastic membership (R195, R196) -/

/-- What a list of updates brings to a word, by a count of each. -/
def countOf (f : Arrival → Nat) (l : List Arrival) : Nat := (l.map f).foldl (· + ·) 0

/-- R194, R195, R196: each elastic word of a workgroup receives one update; the arrivals that `land` names reach it in the same clk. -/
def State.elasticUpdate (s : State) (c w arrivals drops attached : Nat) (land : Nat → List Arrival) : State :=
  match s.wgOf c w with
  | none => s
  | some x =>
    let k := (List.range x.bars).foldl (fun k i =>
      let off := x.barAt i
      let b := Core.bar k off
      if barElastic b then
        let l := land off
        let k := k.setBar off (barUpdate b (arrivals + countOf Arrival.arrivals l) (drops + countOf Arrival.drops l) (attached + countOf Arrival.attached l))
        { k with arrivals := l.foldl (fun r a => r.erase a) k.arrivals }
      else k) (s.core c)
    s.setCore c k.wakeBars

/-- R198: a group's or workgroup's identity in a state word: context, die, core and slot. -/
def identOf (ctx c slot : Nat) : Nat := ctx + dieOf c * 2 ^ 6 + (c % 12) * 2 ^ 9 + slot * 2 ^ 13

/-- R373: the slot for a new group: the quarter with the most free slots, the lower of equals. -/
def Core.freeSlot (k : Core) : Option Nat :=
  let free (q : Nat) : List Nat := (fromN (12 * q) 12).filter fun i => (k.groups.look i).isNone
  match leastBy (fun q => (12 - (free q).length) * 4 + q) (List.range 4) with
  | some q => (free q).head?
  | none => none

/-- R38, R174: starts a group of a workgroup. DESIGN CHOICE (log 91): its next COLL is the workgroup's first that no member operation has
been accepted for, also where some groups have issued theirs. -/
def State.startGroup (s : State) (c w : Nat) (entry : Nat) : State :=
  match s.wgOf c w, (s.core c).freeSlot with
  | some x, some g =>
    let used := ((s.core c).groupsOf w).map fun p => p.2.gid
    let blk := (lowestFree (s.ctx x.ctx).stackn (s.ctx x.ctx).blocks).getD 0
    let sregs : SMap Word := SMap.set 0 (SMap.set 0 [] 0 (x.args.setWidth 32)) 1 (x.args.extractLsb' 32 32)
    let gr : Group :=
      { uid := s.serial, ctx := x.ctx, wg := w, gid := (lowestFree 64 used).getD 0, nregs := x.nregs, block := blk, sregs := sregs,
        slots := [(0, { pc := BitVec.ofNat 17 (x.rbase + entry), mask := BitVec.allOnes 32 })],
        collNext := x.collDone, ident := identOf x.ctx c g }
    let s : State := { s with serial := s.serial + 1 }
    (s.setCtx x.ctx { s.ctx x.ctx with blocks := (s.ctx x.ctx).blocks ++ [blk] }).setGrp c g gr
  | _, _ => s

/-- R195: ATTACH. -/
def execAttach (m : Bool) (a d : BitVec 7) (s : State) : Outcome State Fault Refusal :=
  onSplit s fun I =>
    match I.gr.check false [opd d, opd a] with
    | some c => I.trap s c
    | none => match s.wgOf I.c I.gr.wg with
      | none => I.trap s 0x84
      | some w =>
        if w.emax ≤ w.emin then I.trap s 0x84
        else
          let k := (I.gr.rd a.toNat (lowest I.sp.mask)).toNat % 64
          let n := min k (s.attachFree I.c I.gr.wg)
          let s := I.done s (I.gr.wr d.toNat I.sp.mask fun _ => BitVec.ofNat 32 n) 2 m
          if n = 0 then s else iter (fun s => s.startGroup I.c I.gr.wg w.aentry) n (s.elasticUpdate I.c I.gr.wg 0 0 n fun _ => [])

/-- R196: DETACH: the group issues nothing more, and DETACH_RETIRE retires it. -/
def execDetach (m : Bool) (s : State) : Outcome State Fault Refusal :=
  onSplit s fun I =>
    if s.wgSize I.c I.gr.wg ≤ ((s.wgOf I.c I.gr.wg).map fun w => w.emin).getD 0 then I.trap s 0x85
    else if I.gr.pend ≠ [] then I.trap s 0x86
    else I.parkAs s .detach m

/-- R197: TRIGGER. -/
def execTrigger (m : Bool) (s : State) : Outcome State Fault Refusal :=
  onSplit s fun I =>
    let new := I.sp.mask &&& ~~~ I.gr.triggered
    I.done s { I.gr with
      triggered := I.gr.triggered ||| I.sp.mask
      trigUpto := if new = 0 then I.gr.trigUpto else s.serial } 2 m

end Sys2Proof.Machine
end

