-- ==== Sys2Proof/Machine/Edge.lean ====
section
/-! DEFINITION. Graph-edge queues (R198 to R200) and host-visible windows (R201, R202). -/

namespace Sys2Proof.Machine

open Host (Outcome)

/-! ### Queue descriptors (R198) -/

/-- R198: a descriptor as it stands in memory. -/
structure QDesc where
  slots : Nat
  states : Nat
  count : Nat
  zlog : Nat
  batch : Nat
  free : Nat
  filled : Nat
  rsv : Nat
  cmt : Nat
  consumer : Nat
  ctx : Nat
  valid : Bool
deriving DecidableEq, Repr

def State.qdesc (s : State) (pa : Nat) : QDesc :=
  { slots := s.rdM pa 8, states := s.rdM (pa + 0x08) 8, count := s.rdM (pa + 0x10) 4, zlog := s.rdM (pa + 0x14) 1,
    batch := s.rdM (pa + 0x16) 2, free := s.rdM (pa + 0x18) 4, filled := s.rdM (pa + 0x1C) 4, rsv := s.rdM (pa + 0x20) 4,
    cmt := s.rdM (pa + 0x24) 4, consumer := s.rdM (pa + 0x28) 8, ctx := s.rdM (pa + 0x30) 1 % 64,
    valid := decide (s.rdM (pa + 0x30) 1 / 128 = 1) }

/-- What a queue access does with a page (R198: access atomic). -/
def queueWant : Want := ⟨true, true, true, false⟩

/-- The state word of a slot: state, number and holder. -/
structure QSlot where
  st : Nat
  num : Nat
  holder : Nat
deriving DecidableEq, Repr

def QSlot.word (x : QSlot) : Nat := x.st % 4 + (x.num % 2 ^ 32) * 2 ^ 8 + (x.holder % 2 ^ 24) * 2 ^ 40

/-- The state word of slot `i`, through the context's translation. -/
def State.qslot (s : State) (q : QDesc) (i : Nat) : QSlot :=
  let x := s.rdM (s.engineRes q.ctx (q.states + 8 * i) queueWant).pa 8
  ⟨x % 4, x / 2 ^ 8 % 2 ^ 32, x / 2 ^ 40⟩

def State.setQslot (s : State) (q : QDesc) (i : Nat) (x : QSlot) : State :=
  s.hwWriteN (s.engineRes q.ctx (q.states + 8 * i) queueWant).pa 8 x.word

/-- R199: the lowest-indexed free slot at or after rsv mod N, in ring order. -/
def State.freeSlotOf (s : State) (q : QDesc) : Option Nat :=
  ((List.range q.count).map fun i => (q.rsv + i) % q.count).find? fun i => decide ((s.qslot q i).st = 0)

/-- The slots in a state that a holder has, the lowest number first. -/
def State.slotsHeld (s : State) (q : QDesc) (st holder : Nat) : List Nat :=
  (List.range q.count).filter fun i => let x := s.qslot q i; decide (x.st = st ∧ x.holder = holder)

def State.lowestHeld (s : State) (q : QDesc) (st holder : Nat) : Option Nat :=
  leastBy (fun i => (s.qslot q i).num) (s.slotsHeld q st holder)

/-- R199: a push: the slot reserved and its address. -/
def State.pushSlot (s : State) (pa ident : Nat) : Option (Nat × State) :=
  let q := s.qdesc pa
  if q.free = 0 then none
  else match s.freeSlotOf q with
    | none => none
    | some i =>
      let s := s.setQslot q i ⟨1, q.rsv, ident⟩
      let s := (s.hwWriteN (pa + 0x20) 4 ((q.rsv + 1) % 2 ^ 32)).hwWriteN (pa + 0x18) 4 (q.free - 1)
      some (q.slots + i * 2 ^ q.zlog, s)

/-- R199: a commit of the held slot with the lowest reservation number: U after it. -/
def State.commitSlot (s : State) (pa ident : Nat) : Option (Nat × State) :=
  let q := s.qdesc pa
  match s.lowestHeld q 1 ident with
  | none => none
  | some i =>
    let s := s.setQslot q i ⟨2, q.cmt, ident⟩
    let u := (q.filled + 1) % 2 ^ 32
    some (u, (s.hwWriteN (pa + 0x24) 4 ((q.cmt + 1) % 2 ^ 32)).hwWriteN (pa + 0x1C) 4 u)

/-- R199: a free of the dispatched slot with the lowest commit number. -/
def State.releaseSlot (s : State) (pa ident : Nat) : Option State :=
  let q := s.qdesc pa
  match s.lowestHeld q 3 ident with
  | none => none
  | some i => some ((s.setQslot q i ⟨0, 0, 0⟩).hwWriteN (pa + 0x18) 4 (q.free + 1))

/-! ### QOP (R199, R200) -/

/-- R65: the shadows of a queue's descriptor and state array are rounded. -/
def State.roundQueue (s : State) (pa : Nat) : State :=
  if s.shadows.isEmpty then s
  else
    let s := s.foldShadows [sectorOf pa]
    s.foldShadows (runs ((s.rangePas (s.qdesc pa).ctx (s.qdesc pa).states (8 * (s.qdesc pa).count) queueWant).map sectorOf))

/-- R339, R322: the physical bytes of a queue's descriptor and of its state array. -/
def State.queuePas (s : State) (pa : Nat) : List Nat :=
  if s.badSectors.isEmpty && s.poisoned.isEmpty then []
  else pa :: s.rangePas (s.qdesc pa).ctx (s.qdesc pa).states (8 * (s.qdesc pa).count) queueWant

/-- R198, R199: what every queue operation checks: the descriptor's page and address, its data (R339, R322), the descriptor, and the pages and the data of
its state array; then 0x8B where `none_` says that it has no slot to act on. The continuation `go` receives the descriptor's physical address. R155,
R166: kind 7 is deferred, and `bad` issues the operation without a value. R351: the pages that it writes are marked. DESIGN CHOICE (log 85): R20
names the address that the lane accessed, and a QOP's lane names the descriptor alone, so `trapaddr` holds the descriptor's address also for a cause
met on the state array. -/
def Iss.queueOp (I : Iss) (s : State) (m : Bool) (a : BitVec 6) (ops : List Opd) (none_ : State → Nat → Bool) (bad : State → Dword → State)
    (go : State → Nat → Dword → State) : State :=
  let L := lowest I.sp.mask
  let va := (I.gr.rd64 (a6 a) L).toNat
  let at_ := BitVec.ofNat 64 va
  let rs : List Ref := [⟨L, va, s.resolve I.c I.gr L va 1 queueWant⟩]
  I.access s m (addrOpd a :: ops) 2 rs fun s =>
    let res := (rs.headD ⟨0, 0, {}⟩).res
    let pa := res.pas.headD 0
    if va / 2 ^ 60 ≠ 0 ∨ va % 64 ≠ 0 then I.trap s 0x8A
    else if res.kinds.contains 7 || s.anyBad [pa] then bad s at_
    else if s.anyPoison [pa] then s.stopCtx I.c I.gr.ctx 0xE3
    else
      let s := s.roundQueue pa
      let q := s.qdesc pa
      let n := 8 * q.count
      let kinds := s.rangeKinds q.ctx q.states n queueWant
      if ¬ q.valid ∨ q.ctx ≠ I.gr.ctx then I.trap s 0x8A
      else match memCause (kinds.filter fun k => decide (k ≠ 7)) 2 with
        | some k => I.trapLanes s (BitVec.ofNat 8 k) (maskOf [L]) [(L, at_)]
        | none =>
          if kinds.contains 7 || s.anyBad (s.queuePas pa) then bad s at_
          else if s.anyPoison (s.queuePas pa) then s.stopCtx I.c I.gr.ctx 0xE3
          else if none_ s pa then I.trap s 0x8B
          else go ((s.dirtyPages I.c I.gr.ctx rs).touchRange q.ctx q.states n queueWant) pa at_

/-- The lane of a queue operation. -/
def Iss.queueLane (I : Iss) (va : Dword) (val : Option (List Word)) : List LaneAcc := [⟨lowest I.sp.mask, va, .global, [], 0, [], val⟩]

/-- The operations of a kind that a group, or its workgroup's groups, have outstanding at a queue. -/
def State.queueOps (s : State) (uids : List Nat) (k : OpKind) : Nat :=
  (s.ops.filter fun p => decide (p.2.kind = k) && uids.contains p.2.uid).length

/-- R199: QPUSH. With a free slot the address is on its way; with none the group is parked. -/
def execQpush (m : Bool) (a : BitVec 6) (d : BitVec 7) (s : State) : Outcome State Fault Refusal :=
  onSplit s fun I =>
    let o (s : State) (pa : Nat) (va : Dword) (val : Option (List Word)) : Op :=
      I.op s (.qpush pa) .device d.toNat 2 I.sp.mask 0 (I.queueLane va val)
    I.queueOp s m a [pairOpd d] (fun _ _ => false) (fun s va => I.issueRead s m (o s 0 va (some [])) false) fun s pa va =>
      let waiting := (SMap.get ({} : Queue) s.queues pa).pushers
      match if waiting.isEmpty then s.pushSlot pa I.gr.ident else none with
      | some (x, s) => I.issueRead s m (o s pa va (some [BitVec.ofNat 32 x, BitVec.ofNat 32 (x / 2 ^ 32)])) false
      | none =>
        let o := o s pa va none
        let s : State := { s with queues := s.queues.put pa { pushers := waiting ++ [(I.gr.uid, o.op)] } }
        let s := I.issueRead s false o false
        match s.grp I.c I.g with
        | some g => s.setGrp I.c I.g { g with park := .qpush o.op pa, parkMark := m }
        | none => s

/-- R199: QPOP. -/
def execQpop (m : Bool) (a : BitVec 6) (d : BitVec 7) (s : State) : Outcome State Fault Refusal :=
  onSplit s fun I =>
    let go (s : State) (pa : Nat) (va : Dword) (val : Option (List Word)) : State :=
      I.issueRead s m (I.op s (.qpop pa) .device d.toNat 1 I.sp.mask 0 (I.queueLane va val)) false
    I.queueOp s m a [opd d]
      (fun s pa => decide ((s.slotsHeld (s.qdesc pa) 1 I.gr.ident).length ≤ s.queueOps [I.gr.uid] (.qpop pa)))
      (fun s va => go s 0 va (some [])) fun s pa va => go s pa va none

/-- R199: QFREE. -/
def execQfree (m : Bool) (a : BitVec 6) (s : State) : Outcome State Fault Refusal :=
  onSplit s fun I =>
    let go (s : State) (pa : Nat) (va : Dword) (val : Option (List Word)) : State :=
      I.issueWrite s m (I.op s (.qfree pa) .device 0 0 I.sp.mask 0 (I.queueLane va val))
    I.queueOp s m a []
      (fun s pa =>
        let uids := ((s.core I.c).groupsOf I.gr.wg).map fun p => p.2.uid
        let ident := ((s.wgOf I.c I.gr.wg).map fun w => w.ident).getD 0
        decide ((s.slotsHeld (s.qdesc pa) 3 ident).length ≤ s.queueOps uids (.qfree pa)))
      (fun s va => go s 0 va (some [])) fun s pa va => go s pa va none

/-! ### PUBLISH (R202) -/

/-- R202: PUBLISH: the split waits for the port agent, which PUBLISH_ACCEPT gives the publish to. -/
def execPublish (m : Bool) (a : BitVec 6) (s : State) : Outcome State Fault Refusal :=
  onSplit s fun I =>
    I.access s m [addrOpd a] 0 [] fun s =>
      match s.windowAt I.gr.ctx (I.gr.rd64 (a6 a) (lowest I.sp.mask)).toNat with
      | none => I.trap s 0x8C
      | some w => s.setGrp I.c I.g ((((I.gr.touched I.k).tick (some I.k)).hold I.k (.publish w) m).settle)

end Sys2Proof.Machine
end

