-- ==== Sys2Proof/Machine/Result.lean ====
section
/-! DEFINITION. How results arrive (R9, R155, R183, R391), acknowledgements of writes (R184), and the ends of the waits of groups and
splits (R11, R151, R152, R186, R193, R197, R199, R202). Each event is one step; an event that is not due leaves the state alone. -/

namespace Sys2Proof.Machine

open Host (Outcome)

/-! ### Results (R9, R155) -/

/-- The words that a lane's performed access gives its registers. -/
def Op.value (o : Op) (l : LaneAcc) : List Word :=
  let v := l.val.getD []
  match o.kind with
  | .load bytes sx _ => if sx && decide (bytes < 4) then [sextW (v.headD 0) (8 * bytes)] else v
  | .ldx _ _ => ldxValue l.attr.toNat (l.arg.headD 0).toNat ((fromWords v).take l.pas.length)
  | _ => v

/-- R155: the lanes of a result whose data could not be corrected. -/
def Op.badLanes (o : Op) : List LaneAcc := o.lanes.filter fun l => decide (l.val = some [])

/-- R155: the cause of such a result: kind 7 of its access. -/
def Op.badCause (o : Op) : BitVec 8 := match o.kind with | .atomic _ _ _ | .qpush _ | .qpop _ | .qfree _ => 0x7A | _ => 0x78

/-- R149, R155: deferred records lose the lanes that have exited; one without lanes is gone. -/
def Group.liveRecords (g : Group) : Group :=
  let l := g.deferred.map fun r => { r with lanes := r.lanes.filter fun p => !g.exited.getLsbD p.1 }
  { g with deferred := l.filter fun r => !r.lanes.isEmpty }

/-- R155: a deferred record is added to a record of its cause, or made when fewer than two are held. Lanes that have exited take no cause. -/
def Group.defer (g : Group) (cause : BitVec 8) (ls : SMap Dword) (sup : Bool) : Option Group :=
  let g := g.liveRecords
  let ls := ls.filter fun p => !g.exited.getLsbD p.1
  if ls.isEmpty then some g
  else if g.deferred.any fun r => r.cause = cause ∧ r.sup = sup then
    some { g with deferred := g.deferred.map fun r =>
      if r.cause = cause ∧ r.sup = sup then
        { r with lanes := ls.foldl (fun t p => if (t.look p.1).isSome then t else t.put p.1 p.2) r.lanes }
      else r }
  else if g.deferred.length < 2 then some { g with deferred := g.deferred ++ [⟨cause, ls, sup⟩] }
  else none

/-- R155: a marker that waits gives way to a deferred cause that a split will take; the handler's does not (R37). -/
def Group.unmark (g : Group) : Group := if g.park = .marker ∧ g.meetsRecord = true then { g with park := .run } else g

/-- R155: a deferred record made, where there is room for it, and a marker's wait ended. -/
def Group.deferred_ (g : Group) (cause : BitVec 8) (ls : SMap Dword) : Group := ((g.defer cause ls false).getD g).unmark

/-- R185: an acquire's value has arrived. -/
def Group.acquired (g : Group) (id : Nat) : Group :=
  let f (x : Split) : Split := { x with acq := x.acq.filter fun y => decide (y ≠ id) }
  { g with slots := g.slots.mapVals fun _ x => f x, spill := g.spill.map f }

/-- R9: the result of an operation written for its lanes, its flags cleared; none where R155 holds it at the port. -/
def Group.receive (g : Group) (o : Op) : Option Group :=
  let first := (o.lanes.head?.map o.value).getD []
  let val (L : Nat) : List Word := ((o.lanes.find? fun l => l.lane = L).map o.value).getD first
  let bad := o.badLanes
  let g' := (if bad.isEmpty then some g
    else (g.defer o.badCause (bad.map fun l => (l.lane, l.va)) o.sup).map Group.unmark)
  g'.map fun g => ((g.wrLive o.d.toNat o.nd o.mask val).clearPend o.d.toNat o.nd).acquired o.op

/-- R185: the lines that an acquire of a wide scope invalidates. -/
def OpKind.acquires : OpKind → Bool
  | .load _ _ a | .ldx _ a | .atomic _ _ a => a
  | _ => false

def State.eraseOp (s : State) (id : Nat) : State := { s with ops := s.ops.erase id }

/-- R322: whether a read consumed poisoned data. -/
def State.poisons (s : State) (o : Op) : Bool :=
  o.lanes.any fun l => decide (l.space.bank = none) && s.anyPoison l.pas

/-- R391, R459: a completion for a context that is gone: the die's count goes up, and a record is posted. -/
def State.dropCompletion (s : State) (c ctx : Nat) : State :=
  let d := s.die (dieOf c)
  (s.setDie (dieOf c) { d with dropped := d.dropped + 1 }).postError ⟨0, 6, dieOf c, c % 12, ctx, true, d.clk, 0⟩

/-- R9, R391: a performed result goes to its group: on its core, held while the core is halted, in the image, or dropped. R185, R283: an acquire of a
wide scope invalidates the context's L1 lines, at the restore where the group is saved. -/
def State.deliver (s : State) (o : Op) : State :=
  if s.poisons o then (s.eraseOp o.op).stopCtx o.core o.ctx 0xE3
  else match s.findUid o.uid with
    | some (c, g) =>
      let k := s.core c
      if k.halted && k.redirect.contains (.op o.op) then s
      else if k.halted then s.setCore c { k with redirect := k.redirect ++ [.op o.op] }
      else match s.grp c g with
        | none => s
        | some x =>
          if o.sup && !o.badLanes.isEmpty then (s.eraseOp o.op).stopCtx c o.ctx 0xEC
          else match x.receive o with
            | none => s
            | some x =>
              let s := (s.setGrp c g x).eraseOp o.op
              if o.kind.acquires && o.scope.wide then s.setCore c ((s.core c).l1Invalidate o.ctx) else s
    | none =>
      match s.getUid o.uid with
      | some x =>
        if o.sup && !o.badLanes.isEmpty then
          (((s.eraseOp o.op).failGang ((s.wgOfUid o.uid).elim 0 Workgroup.gang) 0xEC).postError
            ⟨0xEC, 1, dieOf o.core, o.core % 12, o.ctx, true, s.clkOf o.core, 0⟩)
        else match x.receive o with
        | none => s
        | some _ =>
          let s := (s.modUid o.uid fun g => (g.receive o).getD g).eraseOp o.op
          if o.kind.acquires && o.scope.wide then s.mapImages fun im => if im.has o.uid then { im with acquired := true } else im else s
      | none => (s.eraseOp o.op).dropCompletion o.core o.ctx

/-- R155, R164: a cause that a unit meets for a group's lanes after their instruction has issued: recorded with the group; a double trap where the
handler issued it; nothing where the group is gone. None where R155 holds it back. -/
def State.deferFor (s : State) (uid core ctx : Nat) (sup : Bool) (cause : BitVec 8) (ls : SMap Dword) : Option State :=
  match s.getUid uid with
  | none => some s
  | some x =>
    if sup then
      some (if (s.findUid uid).isSome then s.stopCtx core ctx 0xEC
        else (s.failGang ((s.wgOfUid uid).elim 0 Workgroup.gang) 0xEC).postError
          ⟨0xEC, 1, dieOf core, core % 12, ctx, true, s.clkOf core, 0⟩)
    else (x.defer cause ls false).map fun _ => s.modUid uid fun g => g.deferred_ cause ls

/-- R155: such a cause of an outstanding operation. -/
def State.deferTo (s : State) (o : Op) (cause : BitVec 8) (ls : SMap Dword) : Option State := s.deferFor o.uid o.core o.ctx o.sup cause ls

/-- R339, R322: a queue operation that executes at the home atomic unit meets data that cannot be corrected, or poisoned data. -/
def State.atQueue (s : State) (o : Op) (pa : Nat) (go : State → State) : State :=
  if s.anyBad (s.queuePas pa) then s.setLane o.op 0 []
  else if s.anyPoison (s.queuePas pa) then (s.eraseOp o.op).stopCtx o.core o.ctx 0xE3
  else go (s.roundQueue pa)

/-- R200: a commit is applied once the group's earlier stores are performed at device scope. -/
def State.performPop (s : State) (o : Op) (pa : Nat) : State :=
  let s := s.flushFor o.core o.ctx .device
  if !o.performedLanes && s.valuesHeld o.uid o.op && s.writesPerformed o.uid o.core o.ctx .device o.op then
    s.atQueue o pa fun s =>
      match s.commitSlot pa ((s.getUid o.uid).elim 0 Group.ident) with
      | some (u, s) => s.setLane o.op 0 [BitVec.ofNat 32 u]
      | none => s.setLane o.op 0 [0]
  else s

/-- R200: QFREE frees its slot once the group's earlier loads have their values. -/
def State.performFree (s : State) (o : Op) (pa : Nat) : State :=
  if !o.performedLanes && s.valuesHeld o.uid o.op then
    s.atQueue o pa fun s => (((s.wgOfUid o.uid).bind fun w => s.releaseSlot pa w.ident).getD s).setLane o.op 0 [0]
  else s

/-- R9: RESULT_WRITEBACK. The access is performed where the rules allow it, and its result arrives; otherwise the misses that it needs
are requested again. -/
def execResultWriteback (op : Nat) (s : State) : Outcome State Fault Refusal :=
  .next <| match s.ops.look op with
    | none => s
    | some o => match o.kind with
      | .load _ _ _ | .ldx _ _ | .atomic _ true _ | .qpush _ | .qpop _ | .pref =>
        let s := match o.kind with
          | .qpop pa => s.performPop o pa
          | _ => s.performOp op
        match s.ops.look op with
        | none => s
        | some o =>
          if !o.performedLanes then (match o.kind with | .qpush _ | .qpop _ => s | _ => s.fetchOp op)
          else if o.kind = .pref then s.eraseOp op
          else s.deliver o
      | _ => s

/-- R184: WRITE_ACKNOWLEDGED: a store or reduction is performed where the rules allow it and acknowledged; it is forgotten once it is
performed at its scope. R155, R339: a reduction or QFREE that met an uncorrectable sector gives its lanes the deferred cause 0x7A. -/
def execWriteAcknowledged (op : Nat) (s : State) : Outcome State Fault Refusal :=
  .next <| match s.ops.look op with
    | none => s
    | some o => match o.kind with
      | .store _ _ | .atomic _ false _ =>
        let s := s.performOp op
        match s.ops.look op with
        | none => s
        | some o =>
          if !o.performedLanes then s.fetchOp op
          else
            match (if o.acked || o.badLanes.isEmpty then some s else s.deferTo o 0x7A (o.badLanes.map fun l => (l.lane, l.va))) with
            | none => s
            | some s =>
              let o := { o with acked := true }
              let s : State := { s with ops := s.ops.put op o }
              if s.performedAt o o.scope then s.eraseOp op else s
      | .qfree pa =>
        let s := s.performFree o pa
        match s.ops.look op with
        | none => s
        | some o =>
          if !o.performedLanes then s
          else if o.badLanes.isEmpty then s.eraseOp op
          else ((s.deferTo o 0x7A (o.badLanes.map fun l => (l.lane, l.va))).map fun s => s.eraseOp op).getD s
      | _ => s

/-! ### Traps and parks -/

/-- R155: the record that the split of a slot meets, the lowest cause first. -/
def Group.deferredFor (g : Group) (sp : Split) : Option Deferred :=
  if g.sup then none
  else leastBy (fun r : Deferred => r.cause.toNat) (g.deferred.filter fun r => r.lanes.any fun p => sp.mask.getLsbD p.1)

/-- R151, R155: DEFERRED_CAUSE_TAKE: the split takes the record in its issue slot, where its group is neither parked nor about to enter a trap. -/
def execDeferredCauseTake (core grp slot : Nat) (s : State) : Outcome State Fault Refusal :=
  .next <| match s.iss core grp slot with
    | none => s
    | some I => match I.gr.deferredFor I.sp with
      | none => s
      | some r =>
        let hit := r.lanes.filter fun p => I.sp.mask.getLsbD p.1
        let rest := r.lanes.filter fun p => !I.sp.mask.getLsbD p.1
        let others := I.gr.deferred.filter fun x => decide (x ≠ r)
        let gr := { I.gr with deferred := if rest.isEmpty then others else { r with lanes := rest } :: others }
        if I.gr.park ≠ .run ∨ I.gr.trapPend ≠ none ∨ (s.core core).halted = true then s
        else ((s.setGrp core grp gr).raise core grp slot r.cause (maskOf (hit.map Prod.fst)) hit I.sp.pc false).yieldUpdate core (some I.gr.uid)

/-- Changes a group in place. -/
def State.modGrp (s : State) (c g : Nat) (f : Group → Group) : State :=
  match s.grp c g with
  | some x => s.setGrp c g (f x)
  | none => s

/-- R11: GROUP_UNPARK. -/
def execGroupUnpark (core grp : Nat) (s : State) : Outcome State Fault Refusal :=
  .next <| s.modGrp core grp fun x => if x.park = .marker ∧ x.pend = [] then { x with park := .run } else x

/-- R152: TRAP_ENTRY. -/
def execTrapEntry (core grp : Nat) (s : State) : Outcome State Fault Refusal :=
  .next <| match s.grp core grp with
    | some x => if x.pend = [] then s.enterTrap core grp else s
    | none => s

/-- R151: YIELD_END. Groups that have stopped being ready have left the set. -/
def execYieldEnd (core grp : Nat) (s : State) : Outcome State Fault Refusal :=
  .next <| (s.yieldUpdate core none).modGrp core grp fun x => match x.park with
    | .yield noted t => if noted = [] ∨ t ≤ s.clkOf core then x.unpark else x
    | _ => x

/-- R151: whether every write of a group is performed at its encoded scope. -/
def State.ownWritesDone (s : State) (uid : Nat) : Bool :=
  !(s.ops.any fun p => decide (p.2.uid = uid)
    && (match p.2.kind with | .qfree _ => true | k => k.writes && !s.performedAt p.2 p.2.scope)) && !s.tileStores uid s.serial

/-- R151: WAITALL_COMPLETE. -/
def execWaitallComplete (core grp : Nat) (s : State) : Outcome State Fault Refusal :=
  .next <| s.modGrp core grp fun x =>
    if x.park = .waitall ∧ x.pend = [] ∧ s.ownWritesDone x.uid = true then x.unpark else x

/-- R186: FENCE_COMPLETE. -/
def execFenceComplete (core grp : Nat) (s : State) : Outcome State Fault Refusal :=
  .next <| match s.grp core grp with
    | none => s
    | some x => match x.park with
      | .fence kind sc upto =>
        let s := if kind = 1 then s else s.flushFor core x.ctx sc
        if (kind = 1 || s.writesPerformed x.uid core x.ctx sc upto) && (kind = 2 || s.valuesHeld x.uid upto) then
          let s := if kind ≠ 2 ∧ sc.wide then s.setCore core ((s.core core).l1Invalidate x.ctx) else s
          s.modGrp core grp Group.unpark
        else s
      | _ => s

/-! ### Barriers -/

/-- R193: whether the bank may apply an arrival. -/
def State.arrivalReady (s : State) (c : Nat) (a : Arrival) : Bool :=
  s.valuesHeld a.uid a.upto && s.writesPerformed a.uid c 0 .workgroup a.upto

/-- R391: the barrier word at a core offset of a context, in the bank or in backing. -/
def State.barGet (s : State) (c ctx off : Nat) : Dword := BitVec.ofNat 64 (ofBytes ((fromN off 8).map fun a => s.lsGet c ctx a))

/-- R194: the updates of a context's word that the bank may apply now. -/
def State.landing (s : State) (c ctx off : Nat) : List Arrival :=
  (s.core c).arrivals.filter fun a => decide (a.offset = off ∧ a.ctx = ctx) && s.arrivalReady c a

/-- R194, R391: BARRIER_BANK_UPDATE: the first `count` updates of a word that may be applied land in one clk, and waiting splits
resume. -/
def execBarrierBankUpdate (core offset count : Nat) (s : State) : Outcome State Fault Refusal :=
  .next <|
    let k := s.core core
    match k.arrivals.find? fun a => decide (a.offset = offset) && s.arrivalReady core a with
    | none => s.setCore core k.wakeBars
    | some a0 =>
      let due := (s.landing core a0.ctx offset).take count
      let x := barUpdate (s.barGet core a0.ctx offset) (countOf Arrival.arrivals due) (countOf Arrival.drops due) (countOf Arrival.attached due)
      let s := s.setCore core { k with arrivals := due.foldl (fun l a => l.erase a) k.arrivals }
      let s := s.lsPut core a0.ctx (cellsOf offset 8 x.toNat)
      s.setCore core (s.core core).wakeBars

/-! ### The end of groups, and triggers (R150, R196, R197) -/

/-- A group leaves its workgroup: a group that has not sent its count leaves its trigger to the writes before now; R18, R196:
a shrink request ends when the workgroup has reached its target; a workgroup ends with its last group. -/
def State.groupLeaves (s : State) (c g : Nat) : State :=
  match s.grp c g with
  | none => s
  | some x => match s.wgOf c x.wg with
    | none => s.releaseGroup c g
    | some w =>
      let s := s.releaseGroup c g
      let k := s.core c
      let disown (q : Sequencer) : Sequencer := if q.owner = some x.uid then { q with owner := none } else q
      let s := s.setCore c { k with mseq := disown k.mseq, cseq := disown k.cseq }
      let left := (s.core c).groupsOf x.wg
      let s : State := { s with launches := match s.launches.look w.launch with
        | none => s.launches
        | some l =>
          let l := if x.countSent then l else { l with relUpto := s.serial }
          let l := if left.all fun p => p.2.countSent then l.count w.uid else l
          s.launches.put w.launch (if left.isEmpty then l.wgEnded true 0 s.serial else l) }
      let s := if left.isEmpty then
          let k := s.core c
          let s := s.setCore c ({ k with wgs := k.wgs.erase x.wg }.clearTiles w)
          if (s.gangWgs w.gang).isEmpty then { s with gangs := s.gangs.erase w.gang } else s
        else if w.shrinkReq && decide (left.length ≤ w.shrinkTarget) then s.setWg c x.wg { w with shrinkReq := false }
        else s
      s.checkTrigger w.launch

/-- R150: GROUP_END. -/
def execGroupEnd (core grp : Nat) (s : State) : Outcome State Fault Refusal :=
  .next <| match s.grp core grp with
    | some x =>
      if x.slots = [] ∧ x.spill = [] ∧ x.sup = false ∧ x.trapPend = none ∧ x.pend = [] ∧ s.ownWritesDone x.uid = true then
        s.groupLeaves core grp
      else s
    | none => s

/-- R194, R196: DETACH_RETIRE. The arrivals that the bank may apply in this clk land with it. -/
def execDetachRetire (core grp : Nat) (s : State) : Outcome State Fault Refusal :=
  .next <| match s.grp core grp with
    | some x =>
      if x.park = .detach ∧ s.valuesHeld x.uid s.serial = true ∧ s.writesPerformed x.uid core x.ctx .workgroup s.serial = true then
        (s.elasticUpdate core x.wg 1 1 0 (s.landing core x.ctx)).groupLeaves core grp
      else s
    | none => s

/-- R197: TRIGGER_COUNT: a group whose lanes have all triggered or exited sends its count once its release is performed. -/
def execTriggerCount (core grp : Nat) (s : State) : Outcome State Fault Refusal :=
  .next <| match s.grp core grp with
    | some x =>
      let s := s.flushFor core x.ctx .device
      if x.countSent = false ∧ x.triggered ||| x.exited = BitVec.allOnes 32 ∧ s.valuesHeld x.uid x.trigUpto = true
          ∧ s.writesPerformed x.uid core x.ctx .device x.trigUpto = true then
        let s := s.setGrp core grp { x with countSent := true }
        match s.wgOf core x.wg with
        | some w =>
          if ((s.core core).groupsOf x.wg).all fun p => p.2.countSent then
            (match s.launches.look w.launch with
              | some l => { s with launches := s.launches.put w.launch (l.count w.uid) }
              | none => s).checkTrigger w.launch
          else s
        | none => s
      else s
    | none => s.launches.foldl (fun s p => (if p.2.allCounted then s.flushCtx p.2.ctx else s).checkTrigger p.1) s

/-! ### Queues and windows -/

/-- R199: QPUSH_GRANT: the first parked pusher of a queue receives a slot. -/
def execQpushGrant (queue : Nat) (s : State) : Outcome State Fault Refusal :=
  .next <| match (SMap.get ({} : Queue) s.queues queue).pushers with
    | [] => s
    | (uid, op) :: rest =>
      let ends (s : State) (v : List Word) : State :=
        let s : State := { s with queues := s.queues.put queue { pushers := rest } }
        let s := s.setLane op 0 v
        match s.ops.look op with
        | some o => (s.deliver o).modUid uid fun x => if x.park = .qpush op queue then x.unpark else x
        | none => s
      if s.anyBad (s.queuePas queue) then ends s []
      else match s.ops.look op with
        | none => { s with queues := s.queues.put queue { pushers := rest } }
        | some o =>
          if s.anyPoison (s.queuePas queue) then (s.eraseOp op).stopCtx o.core o.ctx 0xE3
          else match (s.roundQueue queue).pushSlot queue ((s.getUid uid).elim 0 Group.ident) with
            | none => s
            | some (va, s) => ends s [BitVec.ofNat 32 va, BitVec.ofNat 32 (va / 2 ^ 32)]

/-- R202: PUBLISH_ACCEPT. R439: a PUBLISH of a window that is registered no longer takes 0x8C. -/
def execPublishAccept (core grp slot : Nat) (s : State) : Outcome State Fault Refusal :=
  .next <| match s.iss core grp slot with
    | none => s
    | some I => match I.sp.wait with
      | .publish w =>
        if s.ops.any fun p => decide (p.2.uid = I.gr.uid)
            && p.2.lanes.any fun l => l.val.isNone && (match l.space with | .window _ => true | _ => false) then s
        else
          let x := SMap.get ({} : Window) s.windows w
          if !x.en then I.trap (s.setGrp core grp (I.gr.hold I.k .none false)) 0x8C
          else
          let s : State := { s with windows := s.windows.put w { x with staged := [], drains := x.drains ++ [x.staged] } }
          s.setGrp core grp (I.gr.wake fun y => decide (y = I.sp))
      | _ => s

/-- R330: the requests by which a drain set goes to host memory: ItoMWr for a sector staged whole, RdOwn and DirtyEvict for another. -/
def drainReqs (d : List (Nat × Byte)) : List (HostReq × Nat) :=
  ((d.map fun p => p.1 / 64).eraseDups).flatMap fun x =>
    if (((d.filter fun p => p.1 / 64 = x).map Prod.fst).eraseDups).length = 64 then [(.itoMWr, x)] else [(.rdOwn, x), (.dirtyEvict, x)]

/-- R202, R330: PUBLISH_COUNTER_WRITE: the oldest drain's writes become visible in host memory, then the counter, by RdOwn, add and DirtyEvict. -/
def execPublishCounterWrite (window : Nat) (s : State) : Outcome State Fault Refusal :=
  .next <|
    let x := SMap.get ({} : Window) s.windows window
    match x.drains with
    | [] => s
    | d :: rest =>
      let s := s.hwWrite d
      let at_ := hostBase + x.ctr.toNat
      let s := (s.hwWriteN at_ 8 ((s.rdM at_ 8 + 1) % 2 ^ 64)).askHost (drainReqs d ++ [(.rdOwn, at_ / 64), (.dirtyEvict, at_ / 64)])
      { s with windows := s.windows.put window { x with drains := rest } }

end Sys2Proof.Machine
end

