-- ==== Sys2Proof/Machine/Paging.lean ====
section
/-! DEFINITION. MAPPG and frame pools (R161, R355, R356), TLBINV (R162), the end of page walks (R351, R354), L2 ways (R345) and the
power gates of slices (R324). -/

namespace Sys2Proof.Machine

open Host (Outcome)

/-! ### Zeroing and tags (R362, R363) -/

/-- R364: zeroes a run of device memory by full-sector writes that gather every token and leave no older copy. -/
def State.zeroRange (s : State) (a n : Nat) : State :=
  let out (x : Nat) : Bool := !(decide (a ≤ x) && decide (x < a + n))
  let outSec (x : Nat) : Bool := !(decide (a ≤ 64 * x) && decide (64 * x < a + n))
  let s := (((s.toks.map fun p => p.1 / 64).filter fun x => !outSec x).eraseDups).foldl State.gather s
  { s with
    mem := s.mem.filter fun p => out p.1
    badSectors := s.badSectors.filter outSec
    poisoned := s.poisoned.filter outSec
    shadows := s.shadows.filter fun p => outSec (p.1 / 64)
    dies := s.dies.mapVals fun _ d => { d with pw := d.pw.map fun w => { w with bytes := w.bytes.filter fun p => out p.1 } } }

/-- R362: the owner tag of a frame: context, valid, region size. -/
def ownerTag (ctx size : Nat) : BitVec 9 := BitVec.ofNat 9 (ctx % 64 + 64 + size * 128)

/-- R362: whether a frame belongs to no other context. -/
def State.frameFree (s : State) (dpa ctx : Nat) : Bool :=
  let t := (s.tags.get 0 (dpa / 65536)).toNat
  decide (t / 64 % 2 = 0) || decide (t % 64 = ctx)

/-- A frame's tag names the context, with the size that it already has where it is the context's. -/
def State.tagFrame (s : State) (dpa ctx : Nat) : State :=
  if s.tagNames dpa ctx 0 then s else { s with tags := s.tags.set 0 (dpa / 65536) (ownerTag ctx 0) }

/-! ### MAPPG (R161, R355, R356) -/

/-- Where the walk of MAPPG ends: not mappable, at poisoned data, mapped, or at the address of the missing entry with the tables that it needs. -/
inductive MapEnd where
  | bad
  | poisoned
  | mapped
  | missing (tables at_ : Nat)
deriving DecidableEq, Repr

/-- R161, R322: the walk of MAPPG from a table. DESIGN CHOICE (log 107): an entry that cannot be corrected makes the page not mappable, outcome 3, and so
do data of the frame pool or the quota record that cannot be. -/
def State.mapFrom (s : State) (ctx page : Nat) : Nat → Nat → Nat → MapEnd
  | 0, _, _ => .bad
  | n + 1, lvl, table =>
    let pa := table + 8 * (page / 512 ^ (3 - lvl) % 512)
    let e := s.rdM pa 8
    if s.anyBad [pa] then .bad
    else if s.anyPoison [pa] then .poisoned
    else if !leafBit e 0 then .missing (3 - lvl) pa
    else if s.malformed e lvl then .bad
    else if leafBit e 1 then .mapped
    else
      let t := s.dpaOf (leafBit e 9) (leafHgroup e) (leafTarget e)
      if s.tagNames t ctx 0 then s.mapFrom ctx page n (lvl + 1) t else .bad

/-- R356: a root pointer of 0 is a missing level. -/
def State.mapEnd (s : State) (ctx page : Nat) : MapEnd :=
  let r := s.quota ctx 0 8
  if r = 0 then .missing 4 (s.ctx ctx).quota
  else if !leafBit r 0 || leafBit r 1 || s.malformed r 0 then .bad
  else
    let t := s.dpaOf (leafBit r 9) (leafHgroup r) (leafTarget r)
    if s.tagNames t ctx 0 then s.mapFrom ctx page 4 0 t else .bad

/-- R355: a list of the pool: its base, its count's address and its threshold; list 9 is the table list. -/
def State.pool (s : State) (ctx : Nat) : Nat := s.quota ctx 0x30 8
def State.listBase (s : State) (ctx p : Nat) : Nat := s.rdM (s.pool ctx + 16 * p) 8
def State.listCount (s : State) (ctx p : Nat) : Nat := s.rdM (s.pool ctx + 16 * p + 8) 4
def State.listLow (s : State) (ctx p : Nat) : Nat := s.rdM (s.pool ctx + 16 * p + 12) 4
def State.setCount (s : State) (ctx p n : Nat) : State := s.hwWriteN (s.pool ctx + 16 * p + 8) 4 n

/-- R356: a refill request for a list that stands below its threshold, or that lacks a frame, unless one is outstanding. `before` is
the count that MAPPG found. -/
def State.refill (s : State) (ctx p before : Nat) (lacks : Bool) : State :=
  let n := s.listCount ctx p
  let x := s.ctx ctx
  let open_ := ((x.refills.look p).map fun c => decide (before ≤ c)).getD false
  if open_ || lacks || decide (n < s.listLow ctx p) then s.setCtx ctx { x with refills := x.refills.put p n }
  else s.setCtx ctx { x with refills := x.refills.erase p }

/-- R161: the attribute bits that MAPPG copies from b. -/
def mapAttr (b : Nat) : Nat := b &&& 0x3FFE4C

/-- R350: a table pointer and a leaf. -/
def tableEntry (place t : Nat) : Nat := 1 + (if place = 8 then 2 ^ 9 else place * 2 ^ 10) + t * 2 ^ 24
def leafEntry (b frame : Nat) : Nat := 3 + mapAttr b + frame * 16 * 2 ^ 24

/-- Writes the pointers to the drawn tables, level by level, and the leaf. -/
def State.linkTables (s : State) (page place b frame : Nat) : List Nat → Nat → State
  | [], at_ => s.hwWriteN at_ 8 (leafEntry b frame)
  | t :: rest, at_ =>
    let s := s.hwWriteN at_ 8 (tableEntry place t)
    let base := s.dpaOf (decide (place = 8)) place (t * 4096)
    s.linkTables page place b frame rest (base + 8 * (page / 512 ^ rest.length % 512))

/-- R362, R363: a drawn table is zeroed and owned; the rest of its frame is zeroed with it where the frame changes owner. -/
def State.takeTable (s : State) (ctx t : Nat) : State :=
  if s.tagNames t ctx 0 then s.zeroRange t 4096 else (s.zeroRange (t / 65536 * 65536) 65536).tagFrame t ctx

/-- R355, R394: where MAPPG reads of the quota record, the pool and the frame numbers it draws. -/
def State.poolReads (s : State) (ctx p np tables : Nat) : List Nat :=
  let nt := s.listCount ctx 9
  let entry (l n : Nat) : List Nat := fromN (s.listBase ctx l + 4 * n) 4
  (if (s.ctx ctx).live then [(s.ctx ctx).quota, (s.ctx ctx).quota + 0x30] else [])
    ++ fromN (s.pool ctx + 16 * p) 16 ++ fromN (s.pool ctx + 16 * 9) 16 ++ [s.pool ctx + 0xA0]
    ++ (if np = 0 then [] else entry p (np - 1)) ++ (List.range (min tables nt)).flatMap fun i => entry 9 (nt - 1 - i)

/-- R322: the outcome of a MAPPG that has read poisoned data, which its context does not live to see. -/
def poisonOut : Nat := 4

/-- R161, R356: maps one page; the outcome. DESIGN CHOICE (log 100): a frame of the pool whose tag names another context counts as lacking, and a
table placement above 8 as the spread one. -/
def State.mapPage (s : State) (ctx va b : Nat) : Nat × State :=
  if va / 2 ^ 52 ≠ 0 then (3, s)
  else
    let page := pageOf va
    match s.mapEnd ctx page with
    | .bad => (3, s)
    | .poisoned => (poisonOut, s)
    | .mapped => (2, s)
    | .missing tables at_ =>
      let p := if leafBit b 9 then 8 else leafHgroup b
      let place := min 8 (s.rdM (s.pool ctx + 0xA0) 1)
      let np := s.listCount ctx p
      let nt := s.listCount ctx 9
      let lacks (page tbl : Bool) : Nat × State :=
        let s := if page then s.refill ctx p np true else s
        (1, if tbl then s.refill ctx 9 nt true else s)
      let reads := s.poolReads ctx p np tables
      if s.anyBad reads then (3, s)
      else if s.anyPoison reads then (poisonOut, s)
      else if np < 1 ∨ nt < tables then lacks (decide (np < 1)) (decide (nt < tables))
      else
        let frame := s.rdM (s.listBase ctx p + 4 * (np - 1)) 4
        let ts := (List.range tables).map fun i => s.rdM (s.listBase ctx 9 + 4 * (nt - 1 - i)) 4
        let fd := s.dpaOf (leafBit b 9) (leafHgroup b) (frame * 65536)
        let td := ts.map fun t => s.dpaOf (decide (place = 8)) place (t * 4096)
        let bad := td.any fun t => !s.frameFree t ctx
        if !s.frameFree fd ctx || bad then lacks (!s.frameFree fd ctx) bad
        else
          let s := (s.setCount ctx p (np - 1)).setCount ctx 9 (nt - tables)
          let s := (s.zeroRange fd 65536).tagFrame fd ctx
          let s := td.foldl (fun s t => s.takeTable ctx t) s
          let s := s.linkTables page place b frame ts at_
          (0, (s.refill ctx p np false).refill ctx 9 nt false)

/-- R161: MAPPG waits in its split until MAPPG_COMPLETE. -/
def execMappg (m : Bool) (b : BitVec 7) (a : BitVec 6) (d : BitVec 7) (s : State) : Outcome State Fault Refusal :=
  onSplit s fun I =>
    match I.gr.check true [opd d, addrOpd a, opd b] with
    | some c => I.trap s c
    | none =>
      let ls := (lanes I.sp.mask).map fun L =>
        (⟨L, I.gr.rd64 (a6 a) L, .global, [], 0, [I.gr.rd b.toNat L], none⟩ : LaneAcc)
      let o := I.op s (.mappg []) .device d.toNat 1 I.sp.mask 0 ls
      (s.addOp o).setGrp I.c I.g (((I.gr.tick (some I.k)).hold I.k (.mappg o.op) m).settle)

/-- R385: whether the core of a running group is halted, so that nothing is written to it. -/
def State.haltedUid (s : State) (uid : Nat) : Bool := ((s.findUid uid).map fun p => (s.core p.1).halted).getD false

/-- A lane of a MAPPG that has its outcome, with the page that it names. -/
structure MapLane where
  lane : Nat
  page : Nat
  out : Nat
deriving Repr

/-- R161: one lane of a MAPPG. Lanes that name one page share the first lane's outcome, and read 2 where it mapped the page. -/
def State.mapLane (ctx : Nat) (r : List MapLane × State) (l : LaneAcc) : List MapLane × State :=
  let page := l.va.toNat / 65536
  match r.1.find? fun x => x.page = page with
  | some x => (r.1 ++ [⟨l.lane, page, if x.out = 0 then 2 else x.out⟩], r.2)
  | none =>
    let q := r.2.mapPage ctx l.va.toNat (l.arg.headD 0).toNat
    (r.1 ++ [⟨l.lane, page, q.1⟩], q.2)

/-- R65: the shadows of what a MAPPG reads are rounded. -/
def State.roundMap (s : State) (ctx : Nat) (ls : List LaneAcc) : State :=
  if s.shadows.isEmpty then s
  else ls.foldl (fun s l =>
    let b := (l.arg.headD 0).toNat
    let p := if leafBit b 9 then 8 else leafHgroup b
    let s := s.foldShadows ((s.poolReads ctx p (s.listCount ctx p) 4).map sectorOf)
    s.roundWalk ctx (pageOf l.va.toNat)) s

/-- R161, R386: MAPPG_COMPLETE: the lanes map their pages in ascending order, and the split goes on; poisoned data stops the context (R322). -/
def execMappgComplete (op : Nat) (s : State) : Outcome State Fault Refusal :=
  .next <| match s.ops.look op with
    | none => s
    | some o => match o.kind with
      | .mappg _ =>
        if s.haltedUid o.uid then s
        else
          let r := o.lanes.foldl (State.mapLane o.ctx) ([], s.roundMap o.ctx o.lanes)
          if r.1.any fun x => decide (x.out = poisonOut) then (r.2.eraseOp op).stopCtx o.core o.ctx 0xE3
          else (r.2.eraseOp op).modUid o.uid fun g =>
            (g.wr o.d.toNat o.mask fun L => BitVec.ofNat 32 (((r.1.find? fun x => x.lane = L).map MapLane.out).getD 0)).wake
              fun x => decide (x.wait = .mappg op)
      | _ => s

/-! ### TLBINV (R162) -/

/-- R162: removes the entries of a context, or those that map a page, from every TLB, and the faults with which walks for them have ended. -/
def State.tlbRemove (s : State) (ctx : Nat) (page : Option Nat) : State :=
  let keep (e : TlbEntry) : Bool := match page with
    | some p => !e.covers ctx p
    | none => decide (e.ctx ≠ ctx)
  { s with
    dies := s.dies.mapVals fun _ d => { d with tlb := d.tlb.filter keep }
    cores := s.cores.mapVals fun _ k => { k with
      tlb := k.tlb.filter keep
      faults := k.faults.filter fun w => decide (w.ctx ≠ ctx) || (page.map fun p => decide (w.page ≠ p)).getD false } }

/-- R162: the split waits for TLBINV_COMPLETE; the entries go at once. -/
def Iss.tlbinv (I : Iss) (s : State) (m : Bool) (page : Option Nat) : State :=
  let o := I.op s (.tlbinv page) .system 0 0 I.sp.mask 0 []
  ((s.addOp o).tlbRemove I.gr.ctx page).setGrp I.c I.g (((I.gr.tick (some I.k)).hold I.k (.tlbinv o.op) m).settle)

/-- R162: TLBINV.page. -/
def execTlbinvPage (m : Bool) (a : BitVec 6) (s : State) : Outcome State Fault Refusal :=
  onSplit s fun I =>
    match I.gr.check true [addrOpd a] with
    | some c => I.trap s c
    | none => I.tlbinv s m (some (pageOf ((I.gr.rd64 (a6 a) (lowest I.sp.mask)).toNat % 2 ^ 52)))

/-- R162: TLBINV.ctx. -/
def execTlbinvCtx (m : Bool) (s : State) : Outcome State Fault Refusal :=
  onSplit s fun I =>
    match I.gr.check true [] with
    | some c => I.trap s c
    | none => I.tlbinv s m none

/-- R162: every access translated before is performed; a parked QPUSH makes none. -/
def State.accessesDone (s : State) (ctx upto : Nat) : Bool :=
  !s.ops.any fun p => decide (p.2.ctx = ctx ∧ p.2.op < upto)
    && (match p.2.kind with
        | .load _ _ _ | .ldx _ _ | .atomic _ _ _ | .store _ _ => !s.performedAt p.2 p.2.scope
        | .mperm => !p.2.performedLanes
        | .qpop _ | .qfree _ => true
        | .qpush q => !(SMap.get ({} : Queue) s.queues q).pushers.any fun x => x.2 = p.2.op
        | _ => false)
    && !s.cores.any fun p => (p.2.loadQ ++ p.2.storeQ).any fun y => decide (y.ctx = ctx ∧ y.op < upto)

/-- R162: TLBINV_COMPLETE. -/
def execTlbinvComplete (op : Nat) (s : State) : Outcome State Fault Refusal :=
  .next <| match s.ops.look op with
    | none => s
    | some o => match o.kind with
      | .tlbinv page =>
        if s.haltedUid o.uid || !s.accessesDone o.ctx op then s
        else ((s.tlbRemove o.ctx page).eraseOp op).modUid o.uid fun g => g.wake fun x => decide (x.wait = .tlbinv op)
      | _ => s

/-! ### Walks (R351, R354) -/

/-- R354: waiting misses take the walkers that are free. -/
def Die.fillWalkers (k : Die) : Die :=
  let n := 64 - k.walks.length
  { k with
    walks := (k.walkQueue.take n).foldl (fun m w => m.put w.walk w) k.walks
    walkQueue := k.walkQueue.drop n }

/-- R354: a walker is free again: the next waiting miss takes it. -/
def Die.nextWalk (k : Die) (id : Nat) : Die := Die.fillWalkers { k with walks := k.walks.erase id }

/-- Whether a split or a sequencer of a core waits for the walk of a page. -/
def Core.awaits (k : Core) (ctx page : Nat) : Bool :=
  let w (x : Wait) : Bool := match x with | .walk ps => ps.contains page | _ => false
  k.groups.any (fun p => decide (p.2.ctx = ctx) && (p.2.slots.any (fun q => w q.2.wait) || p.2.spill.any fun x => w x.wait))
    || (decide (k.mseq.ctx = ctx) && w k.mseq.wait) || (decide (k.cseq.ctx = ctx) && w k.cseq.wait)

/-- R182, R348: a prefetch whose page is translated, or not. -/
def State.finishFetch (s : State) (ctx : Nat) (e : Option TlbEntry) (f : Fetch) : State :=
  match e with
  | none => s.modUid f.uid Group.drop
  | some e =>
    let r := s.fetchLine f.core ctx f.va (if f.hw then 0 else leafClass e.leaf.toNat) f.hint e
    if r.2 then r.1.modUid f.uid Group.drop
    else if !f.l1 || leafBit e.leaf.toNat 7 || leafBit e.leaf.toNat 8 then r.1
    else
      let line := r.1.physOf e f.va / 256
      let acc (x : Nat) : LaneAcc := ⟨0, BitVec.ofNat 64 f.va, .global, [64 * x], BitVec.ofNat 24 e.leaf.toNat, [], none⟩
      r.1.addOp ⟨r.1.serial, f.uid, f.core, ctx, .pref, .group, 0, 0, 0, (fromN (4 * line) 4).map acc, f.hint, false, false,
        r.1.clkOf f.core, [], []⟩

/-- R351, R354: PAGE_WALK_COMPLETE. The entries are read at device scope, so none of them may stand in the die's pending writes. R322: an entry that
is poisoned stops the contexts that wait for the walk. -/
def execPageWalkComplete (die walk : Nat) (s : State) : Outcome State Fault Refusal :=
  .next <|
    let k := s.die die
    match k.walks.look walk with
    | none => s
    | some w =>
      let s := s.roundWalk w.ctx w.page
      let k := s.die die
      let r := s.walkBy (some die) w.ctx w.page
      if s.anyPoison r.2 then
        ((s.cores.filter fun p => decide (dieOf p.1 = die) && p.2.awaits w.ctx w.page).map Prod.fst).foldl (fun s c => s.stopCtx c w.ctx 0xE3)
          (s.setDie die (k.nextWalk walk))
      else if r.2.any fun pa => k.pw.any fun x => decide (x.sector = sectorOf pa) then s
      else
        let s := s.setDie die (k.nextWalk walk)
        match r.1 with
        | .fault kind =>
          let ended : Walk := { w with fault := some kind, fetches := [] }
          let note (c : Nat) (x : Core) : Core :=
            if dieOf c = die ∧ x.awaits w.ctx w.page then { x with faults := x.faults ++ [ended] } else x
          let s : State := if w.demand then { s with cores := s.cores.mapVals note } else s
          w.fetches.foldl (fun s f => s.finishFetch w.ctx none f) s
        | .leaf lvl e at_ =>
          let plain := leafBit e 2 && !leafBit e 7 && !leafBit e 8
          let s := if w.demand || plain then s.setLeafBit at_ 4 else s
          let en : TlbEntry := ⟨w.ctx, w.page, lvl, BitVec.ofNat 64 (s.rdM at_ 8)⟩
          let s := if w.demand || plain then s.setDie die { s.die die with tlb := tlbEnterL2 en (s.die die).tlb } else s
          w.fetches.foldl (fun s f => s.finishFetch w.ctx (some en) f) s

/-! ### L2 ways and slices (R324, R345) -/

/-- R345: WAY_MASK_CHANGE: Survey's change of a context's mask takes effect; ways that it adds start cleaning. -/
def execWayMaskChange (die ctx : Nat) (mask : BitVec 16) (s : State) : Outcome State Fault Refusal :=
  .next <|
    let old := s.wayMask die ctx
    let s := if (s.ctx ctx).live then s.hwWriteN ((s.ctx ctx).quota + 0x10 + 2 * die) 2 mask.toNat else s
    let k := s.die die
    let new := (List.range 16).filter fun w => mask.getLsbD w && !old.getLsbD w
    s.setDie die { k with
      ways := k.ways.set 0 ctx mask
      cleaning := k.cleaning ++ (new.filter fun w => !k.cleaning.contains (w, ctx)).map fun w => (w, ctx) }

/-- R345: WAY_CLEAN_COMPLETE: every sector of the way has its tokens returned; a line that still has a miss keeps it waiting. -/
def execWayCleanComplete (die way : Nat) (s : State) : Outcome State Fault Refusal :=
  .next <|
    let k := s.die die
    let mine := k.lines.filter fun p => decide (p.2.way = way)
    if !(k.cleaning.any fun c => c.1 = way) then s
    else
      let s := mine.foldl (fun s p => s.roundLine die p.1) s
      if mine.any fun p => s.lineHeld die p.1 then s
      else
        let s := mine.foldl (fun s p => s.evictLine die p.1) s
        s.setDie die { s.die die with cleaning := (s.die die).cleaning.filter fun c => decide (c.1 ≠ way) }

/-- The tokens that a die holds in a slice. -/
def State.sliceTokens (s : State) (die slice : Nat) : Bool :=
  s.toks.any fun p => decide (p.1 % 64 = die ∧ sliceOf (p.1 / 64) = slice ∧ p.2.tokens ≠ 0)

/-- R324: SLICE_POWER_GATE. -/
def execSlicePowerGate (die slice : Nat) (s : State) : Outcome State Fault Refusal :=
  .next <|
    let k := s.die die
    if s.sliceTokens die slice || k.gated.contains slice
        || k.served.any (fun p => decide (sliceOf p.1 = slice ∧ s.now < p.2 + 2600))
        || s.misses.any (fun p => decide (p.2.holder = die ∧ sliceOf p.2.sector = slice))
        || k.pw.any (fun w => decide (sliceOf w.sector = slice)) then s
    else s.setDie die { k with gated := k.gated ++ [slice] }

/-- R324: SLICE_WAKE: a miss of its own die wakes the slice. -/
def execSliceWake (die slice : Nat) (s : State) : Outcome State Fault Refusal :=
  .next <|
    let k := s.die die
    if s.misses.any fun p => decide (p.2.holder = die ∧ sliceOf p.2.sector = slice) then
      s.setDie die { k with gated := k.gated.filter fun x => decide (x ≠ slice) }
    else s

end Sys2Proof.Machine
end

