-- ==== Sys2Proof/Machine/Tile.lean ====
section
/-! DEFINITION. Instructions that groups and sequencers share (R89, R90, R253), the tile table (R32, R33, R229 to R233) and admission to
the matrix queue (R204). -/

namespace Sys2Proof.Machine

open Host (Outcome)

/-! ### Who issues an engine instruction -/

/-- A split, or a sequencer. -/
inductive Eng where
  | grp (I : Iss)
  | seq (c : Nat) (cp : Bool) (q : Sequencer)
deriving Repr

def Eng.core : Eng → Nat
  | .grp I => I.c
  | .seq c _ _ => c
def Eng.wg : Eng → Nat
  | .grp I => I.gr.wg
  | .seq _ _ q => q.wg
def Eng.ctx : Eng → Nat
  | .grp I => I.gr.ctx
  | .seq _ _ q => q.ctx
def Eng.who : Eng → Issuer
  | .grp I => .split I.c I.g I.k
  | .seq c cp _ => .seq c cp
def Eng.src : Eng → Source
  | .grp I => .grp I.gr.uid
  | .seq c cp _ => .seq c cp
/-- R206: rows of the active lanes, or all of them. -/
def Eng.rows : Eng → Mask
  | .grp I => I.sp.mask
  | .seq _ _ _ => BitVec.allOnes 32
def Eng.sup : Eng → Bool
  | .grp I => I.gr.sup
  | .seq _ _ _ => false
/-- A register in the lowest active lane. -/
def Eng.rd : Eng → Nat → Word
  | .grp I, code => I.gr.rd code (lowest I.sp.mask)
  | .seq _ _ q, code => q.rd code
def Eng.rd64 (E : Eng) (code : Nat) : Dword := E.rd (code + 1) ++ E.rd code
/-- The workgroup whose tiles, accumulators and barrier words it names. -/
def Eng.wgOf (E : Eng) (s : State) : Option Workgroup := s.wgOf E.core E.wg

/-- R90, R164: a cause at issue traps a group and stops a sequencer. -/
def Eng.trap (E : Eng) (s : State) (cause : BitVec 8) : State :=
  match E with
  | .grp I => I.trap s cause
  | .seq c cp _ => s.seqStop c cp cause

/-- R27, R253: a wait without issue slots. -/
def Eng.hold (E : Eng) (s : State) (w : Wait) (m : Bool) : State :=
  match E with
  | .grp I => s.setGrp I.c I.g (I.gr.hold I.k w m)
  | .seq c cp q => s.setSeq c cp { q with wait := w }

/-- The instruction ends: the group changed by `f`, or the sequencer by `h`. -/
def Eng.finish (E : Eng) (s : State) (m : Bool) (f : Group → Group) (h : Sequencer → Sequencer) : State :=
  match E with
  | .grp I => I.done s (f I.gr) 2 m
  | .seq c cp q => s.setSeq c cp (h q).next

/-- An engine instruction over register operands. -/
def engine (m : Bool) (ops : List Opd) (s : State) (f : Eng → State) : Outcome State Fault Refusal :=
  onBoth s
    (fun I => match I.gr.check false ops with
      | some c => I.trap s c
      | none => f (.grp I))
    (fun c cp => seqRun s c cp m ops fun q => f (.seq c cp q))

/-! ### Tiles (R32, R33) -/

/-- R30, R32: the physical entry of a tile or accumulator number. -/
def Eng.tile (E : Eng) (s : State) (t : Nat) : Option Nat := (E.wgOf s).bind fun w => w.tiles[t]?
def Eng.acc (E : Eng) (s : State) (a : Nat) : Option Nat := (E.wgOf s).bind fun w => w.accs[a]?

def Core.tile (k : Core) (e : Nat) : Tile := k.tiles.get {} e
def Core.setTile (k : Core) (e : Nat) (t : Tile) : Core := { k with tiles := k.tiles.put e t }

/-- R33: a DRAINING tile with no accepted read left becomes EMPTY. -/
def Tile.drained (t : Tile) : Tile := if t.state = .draining ∧ t.reads = [] then { t with state := .empty } else t

/-- R232, R233: an operation that was accepted on a tile has completed. -/
def Core.tileDone (k : Core) (e op : Nat) : Core :=
  let t := k.tile e
  k.setTile e ({ t with reads := t.reads.filter (fun x => decide (x ≠ op)), writes := t.writes.filter fun x => decide (x ≠ op) }).drained

/-- The core offset where a tile's bytes begin. -/
def Core.tileAt (k : Core) (e : Nat) : Nat :=
  let t := k.tile e
  ((k.wgs.look t.wg).map fun w => w.base).getD 0 + 256 * t.base.toNat

/-- R32: the 64-bit entry. -/
def Tile.word (t : Tile) : Dword :=
  let st := match t.state with | .empty => 0 | .filling => 1 | .ready => 2 | .draining => 3
  BitVec.ofNat 64 (st + t.valid.toNat * 2 ^ 2 + t.fmt.toNat * 2 ^ 3 + t.perm.toNat * 2 ^ 7 + t.geom.toNat * 2 ^ 8
    + t.base.toNat * 2 ^ 16 + t.size.toNat * 2 ^ 32 + (t.wg % 64) * 2 ^ 48 + (t.fills % 1024) * 2 ^ 54)

/-- R34: an operand tile: 0x04 and 0x88, the wait until it is READY, or its physical entry. -/
inductive TileUse where
  | trap (cause : BitVec 8)
  | wait (entry : Nat)
  | ready (entry : Nat)
deriving DecidableEq, Repr

def Eng.useTile (E : Eng) (s : State) (t : Nat) : TileUse :=
  match E.tile s t with
  | none => .trap 0x04
  | some e =>
    let x := (s.core E.core).tile e
    if !x.valid then .trap 0x88 else if x.state = .ready then .ready e else .wait e

/-- A valid entry, for the tile instructions that do not wait. -/
def Eng.anyTile (E : Eng) (s : State) (t : Nat) (f : Nat → Tile → State) : State :=
  match E.tile s t with
  | none => E.trap s 0x04
  | some e =>
    let x := (s.core E.core).tile e
    if x.valid then f e x else E.trap s 0x88

/-- R230: a descriptor whose fields no tile can have. -/
def setupBad (x : Dword) : Bool :=
  let fmt := (x.extractLsb' 32 4).toNat
  let pair := match (x.extractLsb' 36 3).toNat with
    | 0 => decide (fmt ≤ 12)
    | 1 | 2 => decide (fmt = 11)
    | _ => false
  !pair || (x.getLsbD 39 && decide ((x.extractLsb' 36 3).toNat = 0)) || x.extractLsb' 13 3 ≠ 0 || x.extractLsb' 30 2 ≠ 0 || x.extractLsb' 41 23 ≠ 0

/-- R230: what is wrong with a TSETUP descriptor. -/
def setupCause (x : Dword) (valid : Bool) (w : Workgroup) : Option (BitVec 8) :=
  let base := (x.extractLsb' 0 13).toNat
  let size := (x.extractLsb' 16 14).toNat
  if setupBad x then some 0x02
  else if valid || decide (size = 0 ∨ 8192 < size ∨ w.size < 256 * (base + size) ∨ 256 * base < 8 * w.bars) then some 0x87
  else none

/-- R88, R230, R235: TSETUP: the lowest of 0x02, 0x04 and 0x87. -/
def execTsetup (m : Bool) (t a : BitVec 6) (s : State) : Outcome State Fault Refusal :=
  engine m [addrOpd a] s fun E =>
    match E.tile s t.toNat, E.wgOf s with
    | some e, some w =>
      let k := s.core E.core
      let x := E.rd64 (a6 a)
      match setupCause x (k.tile e).valid w with
      | some c => E.trap s c
      | none =>
        let tile : Tile :=
          { state := if x.getLsbD 40 then .ready else .empty, valid := true, fmt := x.extractLsb' 32 4, perm := x.getLsbD 39,
            geom := x.extractLsb' 36 3, base := x.extractLsb' 0 13, size := x.extractLsb' 16 14, wg := E.wg }
        E.finish (s.setCore E.core (k.setTile e tile)) m id id
    | _, _ => E.trap s (if setupBad (E.rd64 (a6 a)) then 0x02 else 0x04)

/-- R233: whether a waiting TFREE can free the entry. -/
def Tile.free (t : Tile) : Bool := decide (t.fills = 0) && t.reads.isEmpty && t.writes.isEmpty

/-- R233: whether a split or a sequencer of a core waits in TFREE of an entry. -/
def Core.tfreeWaits (k : Core) (e : Nat) : Bool :=
  let waits (w : Wait) : Bool := decide (w = .tfree e)
  k.groups.any (fun p => p.2.slots.any (fun q => waits q.2.wait) || p.2.spill.any fun y => waits y.wait)
    || waits k.mseq.wait || waits k.cseq.wait

/-- R233: TFREE. Where another TFREE of the entry waits, both end with TFREE_COMPLETE. -/
def execTfree (m : Bool) (t : BitVec 6) (s : State) : Outcome State Fault Refusal :=
  engine m [] s fun E => E.anyTile s t.toNat fun e x =>
    if x.free && !(s.core E.core).tfreeWaits e then E.finish (s.setCore E.core ((s.core E.core).setTile e { wg := x.wg })) m id id
    else match E with
      | .grp I => s.setGrp I.c I.g (((I.gr.tick (some I.k)).hold I.k (.tfree e) m).settle)
      | _ => E.hold s (.tfree e) m

/-- R231: TSTATE. -/
def execTstate (m : Bool) (t : BitVec 6) (d : BitVec 7) (s : State) : Outcome State Fault Refusal :=
  engine m [pairOpd d] s fun E => E.anyTile s t.toNat fun _ x =>
    E.finish s m (fun g => g.wr64 d.toNat E.rows fun _ => x.word)
      (fun q => (q.wr d.toNat (x.word.setWidth 32)).wr (d.toNat + 1) (x.word.extractLsb' 32 32))

/-- R232: TDRAIN. -/
def execTdrain (m : Bool) (t : BitVec 6) (s : State) : Outcome State Fault Refusal :=
  engine m [] s fun E => E.anyTile s t.toNat fun e x =>
    if x.state = .ready then
      E.finish (s.setCore E.core ((s.core E.core).setTile e ({ x with state := .draining } : Tile).drained)) m id id
    else E.trap s 0x89

/-- Sequencers that wait in an instruction which has ended go on. -/
def Core.wakeSeqs (k : Core) (f : Wait → Bool) : Core :=
  let up (q : Sequencer) : Sequencer := if f q.wait then q.next else q
  { k with mseq := up k.mseq, cseq := up k.cseq }

/-- R233: TFREE_COMPLETE. -/
def execTfreeComplete (core tile : Nat) (s : State) : Outcome State Fault Refusal :=
  .next <|
    let k := s.core core
    let x := k.tile tile
    let waits (w : Wait) : Bool := decide (w = .tfree tile)
    if x.valid && x.free && k.tfreeWaits tile then
      let k := (k.setTile tile { wg := x.wg }).wakeSeqs waits
      s.setCore core { k with groups := k.groups.mapVals fun _ g => g.wake fun y => waits y.wait }
    else s

/-! ### The matrix queue (R204) -/

/-- R219: whether 128 bytes form a permutation of 0 to 127. -/
def permOk (l : List Nat) : Bool := decide (l.length = 128) && (List.range 128).all fun v => l.contains v

/-- R219: the table that an MPERM has read. -/
def Op.table (o : Op) : List Nat := (fromWords (((o.lanes.head?.bind fun l => l.val)).getD [])).map BitVec.toNat

/-- R204, R219: whether a wait is for a queue: also that of an MPERM whose table has come, for the matrix queue. -/
def State.waitsFor (s : State) (w x : Wait) : Bool :=
  decide (x = w) || (decide (w = .matrixQueue)
    && (match x with | .mperm op => (s.ops.look op).any fun o => o.performedLanes && permOk o.table | _ => false))

/-- R204, R243: the issuers of a core that wait for a queue, in the order of their acceptance: sequencers, then groups by slot. -/
def State.queueWaiters (s : State) (c : Nat) (mFirst : Bool) (w : Wait) : List Issuer :=
  let k := s.core c
  let seq (cp : Bool) : List Issuer :=
    if (k.seqOf cp).run = .running ∧ s.waitsFor w (k.seqOf cp).wait = true then [Issuer.seq c cp] else []
  (if mFirst then seq false ++ seq true else seq true ++ seq false)
    ++ k.groups.flatMap fun p =>
      if p.2.park = .run ∧ p.2.trapPend = none then
        (p.2.slots.filter fun q => s.waitsFor w q.2.wait && (!p.2.sup || p.2.handles q.2)).map fun q => .split c p.1 q.1
      else []

/-- R204: whether an issuer's operation is accepted now: there is room, and nobody who waits comes first. -/
def State.matrixRoom (s : State) (c : Nat) (who : Issuer) : Bool :=
  decide ((s.core c).mqueue.length < 16)
    && (match s.queueWaiters c true .matrixQueue with
        | [] => true
        | x :: _ => decide (x = who))

/-- R155, R204, R219: what a waiter does once a queue has room for it: an MPERM's table is accepted, a split takes the deferred cause that it meets, and
any other issues. -/
def State.queueTurn (s : State) (who : Issuer) : Turn :=
  match who with
  | .split c g k => match s.iss c g k with
    | some I => match I.sp.wait with
      | .mperm op => .todo (.mpermDataArrive op)
      | _ => if (I.gr.deferredFor I.sp).isSome then .todo (.deferredCauseTake c g k) else .issue who
    | none => .issue who
  | .seq c cp => match ((s.core c).seqOf cp).wait with
    | .mperm op => .todo (.mpermDataArrive op)
    | _ => .issue who

/-- R204: MATRIX_QUEUE_ACCEPT: with room in the queue of a core that is not halted (R385), it is the first waiter's turn next. -/
def execMatrixQueueAccept (core : Nat) (s : State) : Outcome State Fault Refusal :=
  .next <| match s.queueWaiters core true .matrixQueue with
    | who :: _ =>
      if (s.core core).mqueue.length < 16 ∧ (s.core core).halted = false then { s with agenda := s.queueTurn who :: s.agenda } else s
    | [] => s

/-- R204, R205: an operation enters the queue, with the accumulator's tiles that it reads or writes held. -/
def Eng.accept (E : Eng) (s : State) (m : Bool) (reads writes : List Nat) (kind : MatrixKind) : State :=
  if !s.matrixRoom E.core E.who then E.hold s .matrixQueue m
  else
    let k := s.core E.core
    let id := s.serial
    let k := reads.foldl (fun k e => k.setTile e { k.tile e with reads := (k.tile e).reads ++ [id] }) k
    let k := writes.foldl (fun k e => k.setTile e { k.tile e with writes := (k.tile e).writes ++ [id] }) k
    let k := { k with mqueue := k.mqueue ++ [⟨id, E.src, E.ctx, E.wg, E.rows, E.sup, kind⟩] }
    E.finish ({ s with serial := s.serial + 1 }.setCore E.core k) m (fun g => g) (fun q => q)

end Sys2Proof.Machine
end

