-- ==== Sys2Proof/Machine/Matrix.lean ====
section
/-! DEFINITION. The matrix engine (R204 to R228): MMA and its summation (R57, R58), band scales, the permutation table, the compressed
weight stream, and the moves between accumulators, tiles and registers. -/

namespace Sys2Proof.Machine

open Host (Outcome)

/-! ### Formats of MMA (R209) -/

/-- R209: tile format and geometry, B format (R221), K and A-block bytes of a fmt code. -/
structure MmaFmt where
  fmt : Nat
  geom : Nat
  b : Nat
  k : Nat
  bytes : Nat
deriving DecidableEq, Repr

def mmaFmt (f : Nat) : Option MmaFmt :=
  match f with
  | 0 => some ⟨7, 0, 0, 32, 2048⟩
  | 1 => some ⟨9, 0, 1, 64, 2048⟩
  | 2 => some ⟨9, 0, 2, 64, 2048⟩
  | 3 => some ⟨10, 0, 1, 64, 2048⟩
  | 4 => some ⟨10, 0, 2, 64, 2048⟩
  | 5 => some ⟨4, 0, 3, 64, 2048⟩
  | 6 => some ⟨5, 0, 3, 64, 2048⟩
  | 7 => some ⟨11, 1, 4, 128, 2176⟩
  | 8 => some ⟨11, 2, 5, 128, 2560⟩
  | _ => none

/-- R214: what is wrong with a tile as the operand of an MMA. -/
def mmaTileOk (x : MmaFmt) (t : Tile) (perm : Bool) : Bool :=
  decide (t.fmt.toNat = x.fmt ∧ t.geom.toNat = x.geom ∧ x.bytes ≤ 256 * t.size.toNat)
    && (!perm || (decide (x.geom ≠ 0) && !t.perm))

/-- R30, R34, R88: an accumulator and a READY tile that `ok` allows: the lowest of 0x02, 0x04 and 0x88 that apply, or the wait for the
tile. -/
def Eng.accTile (E : Eng) (s : State) (m : Bool) (c : BitVec 4) (t : Nat) (ok : Nat → Bool) (go : Nat → Nat → State) : State :=
  match E.useTile s t, E.acc s c.toNat with
  | .ready e, some a => if ok e then go a e else E.trap s 0x02
  | .ready e, none => E.trap s (if ok e then 0x04 else 0x02)
  | _, none => E.trap s 0x04
  | .trap k, some _ => E.trap s k
  | .wait e, some _ => E.hold s (.tile e) m

/-- R208, R214: MMA. -/
def execMma (m : Bool) (p z : BitVec 1) (f : BitVec 4) (w : BitVec 3) (t : BitVec 6) (c : BitVec 4) (s : State) :
    Outcome State Fault Refusal :=
  engine m [] s fun E =>
    match mmaFmt f.toNat with
    | none => E.trap s 0x02
    | some x =>
      let tile (e : Nat) : Bool := mmaTileOk x ((s.core E.core).tile e) (decide (p = 1))
      E.accTile s m c t.toNat tile fun a e => E.accept s m [e] [] (.mma a e w.toNat f (decide (z = 1)) (decide (p = 1)))

/-! ### Operands (R210, R211) -/

/-- Bits of an element at an index of a packed run. -/
def elemAt (byte : Nat → Nat) (bits i : Nat) : Nat :=
  if bits = 4 then byte (i / 2) / 16 ^ (i % 2) % 16
  else if bits = 8 then byte i
  else byte (2 * i) + 256 * byte (2 * i + 1)

/-- R210: element `j` of row `i` of the tile operand, as its block scales decode it. -/
def aElem (x : MmaFmt) (band : Nat) (byte : Nat → Nat) (i j : Nat) : FV :=
  if x.geom = 0 then
    match floatFmt x.fmt, intFmt x.fmt with
    | some F, _ => F.decode (elemAt byte F.bits (64 * 8 / F.bits * i + j))
    | none, some (w, sg) => FV.ofInt (intValue w sg (byte (64 * i + j)))
    | none, none => .nan
  else
    let seg := (i / 4) * (if x.geom = 1 then 272 else 320)
    let e := 128 * (i % 4) + j
    let q := elemAt (fun b => byte (seg + b)) 4 e
    if x.geom = 1 then (e8m0 (byte (seg + 256 + e / 32))).mul (fp4e2m1.decode q)
    else b8Value band (byte (seg + 256 + e / 8)) q

/-- R211: element `k` of column `n` of the weight operand. -/
def bElem (b band : Nat) (byte : Nat → Nat) (k n : Nat) : FV :=
  match b with
  | 0 => bf16.decode (elemAt byte 16 (32 * n + k))
  | 1 => fp8e4m3.decode (byte (64 * n + k))
  | 2 => fp8e5m2.decode (byte (64 * n + k))
  | 3 => FV.ofInt (intValue 8 true (byte (64 * n + k)))
  | 4 => (e8m0 (byte (2048 + 4 * n + k / 32))).mul (fp4e2m1.decode (elemAt byte 4 (128 * n + k)))
  | _ => b8Value band (byte (2048 + 16 * n + k / 8)) (elemAt byte 4 (128 * n + k))

/-- R57: the product of a pair; an integer product of zero has no sign. -/
def mmaProduct (b : Nat) (x y : FV) : FV :=
  let p := x.mul y
  if b = 3 ∧ p.isZero = true then .fin false 0 0 else p

/-- R57: the exact sum of the 32 products of a group, from −0, which changes no sum. -/
def groupSum (f : Nat → FV) (grp : Nat) : FV := (fromN (32 * grp) 32).foldl (fun a k => a.add (f k)) (.fin true 0 0)

/-- R57, R58: one rounding for each group of 32. -/
def mmaSum (acc : Word) (f : Nat → FV) (groups : Nat) : Word :=
  (List.range groups).foldl (fun a g => wf32 ((fw a).add (groupSum f g))) acc

/-- R56: the permutation table of a core. -/
def Core.permOf (k : Core) (j : Nat) : Nat := if k.perm.isEmpty then j else k.perm.getD j 0

/-- An accumulator's element. -/
def Acc.get (a : Acc) (i n : Nat) : Word := a.elems.get 0 (32 * i + n)
def Acc.put (a : Acc) (i n : Nat) (x : Word) : Acc := { a with elems := a.elems.set 0 (32 * i + n) x }

/-- Writes columns `cols` of the rows of a mask. -/
def Acc.fill (a : Acc) (rows : Mask) (cols : List Nat) (f : Nat → Nat → Word) : Acc :=
  (lanes rows).foldl (fun a i => cols.foldl (fun a n => a.put i n (f i n)) a) a

def Core.acc (k : Core) (a : Nat) : Acc := k.accs.get {} a
def Core.setAcc (k : Core) (a : Nat) (x : Acc) : Core := { k with accs := k.accs.put a x }
def Core.slot (k : Core) (w : Nat) : WeightSlot := k.weights.get {} w
def Core.setSlot (k : Core) (w : Nat) (x : WeightSlot) : Core := { k with weights := k.weights.put w x }

/-- R212: the accumulator after an MMA. -/
def Core.mma (k : Core) (rows : Mask) (a e w : Nat) (f : BitVec 4) (z perm : Bool) : Acc :=
  let acc := k.acc a
  let slot := k.slot w
  match mmaFmt f.toNat with
  | none => acc
  | some x =>
    if slot.mark || (decide (slot.tag ≠ 0xF) && decide (slot.tag.toNat ≠ x.b)) then
      acc.fill rows (List.range 32) fun _ _ => 0x7FC00000
    else
      let acc := if z then acc.fill rows (List.range 32) fun _ _ => 0 else acc
      if slot.tag = 0xF then acc
      else
        let at_ := k.tileAt e
        let byteA (b : Nat) : Nat := (k.ls.get 0 (at_ + b)).toNat
        let byteB (b : Nat) : Nat := (SMap.get 0 slot.image b).toNat
        let prod (i n kk : Nat) : FV :=
          mmaProduct x.b (aElem x acc.scale.toNat byteA i (if perm then k.permOf kk else kk)) (bElem x.b slot.scale.toNat byteB kk n)
        acc.fill rows (List.range 32) fun i n => mmaSum (acc.get i n) (prod i n) (x.k / 32)

/-- The operation at the head of a core's matrix queue is done: the queue and the tiles that it held. -/
def Core.popMatrix (k : Core) (op : Nat) (tiles : List Nat) (now : Nat) : Core :=
  tiles.foldl (fun k e => k.tileDone e op) { k with mqueue := k.mqueue.drop 1, streams := k.streams.erase op, progress := now }

/-- R226: an ACC2V waits that no queued operation comes before: it reads its accumulator before the operation is performed. -/
def Core.acc2vFirst (k : Core) (op : Nat) : Bool :=
  let first (x : Split) : Bool := match x.wait with | .acc2v upto _ _ _ _ _ => decide (upto ≤ op) | _ => false
  k.groups.any fun p => p.2.slots.any (fun q => first q.2) || p.2.spill.any first

/-- R226, R385: the operation that a core may perform now: none while it is halted for a switch, or while an ACC2V has its turn. -/
def State.matrixHead (s : State) (core : Nat) : Option MatrixOp :=
  if (s.core core).halted then none else (s.core core).mqueue.head?.filter fun o => !(s.core core).acc2vFirst o.op

/-- R212: MMA_PERFORM. -/
def execMmaPerform (core : Nat) (s : State) : Outcome State Fault Refusal :=
  .next <| match s.matrixHead core with
    | some o => match o.kind with
      | .mma a e w f z perm =>
        let k := s.core core
        s.setCore core ((k.setAcc a (k.mma o.rows a e w f z perm)).popMatrix o.op [e] (s.clkOf core))
      | _ => s
    | none => s

/-! ### MCTL (R216 to R219) -/

/-- R217: MZERO. -/
def execMzero (m : Bool) (c : BitVec 4) (s : State) : Outcome State Fault Refusal :=
  engine m [] s fun E => match E.acc s c.toNat with
    | none => E.trap s 0x04
    | some a => E.accept s m [] [] (.mzero a)

/-- R218: MBAND into a slot's band scale. -/
def execMbandW (m : Bool) (i : BitVec 4) (a : BitVec 7) (s : State) : Outcome State Fault Refusal :=
  engine m [opd a] s fun E =>
    if 8 ≤ i.toNat then E.trap s 0x02 else E.accept s m [] [] (.mbandW i.toNat ((E.rd a.toNat).setWidth 16))

/-- R218: MBAND into an accumulator's band scale. -/
def execMbandA (m : Bool) (i : BitVec 4) (a : BitVec 7) (s : State) : Outcome State Fault Refusal :=
  engine m [opd a] s fun E => match E.acc s i.toNat with
    | none => E.trap s 0x04
    | some x => E.accept s m [] [] (.mbandA x ((E.rd a.toNat).setWidth 16))

/-- The operation that reads the table, at workgroup scope. -/
def Eng.permOp (E : Eng) (s : State) (l : LaneAcc) : Op :=
  let uid := match E with | .grp I => I.gr.uid | .seq _ _ q => q.owner.getD 0
  ⟨s.serial, uid, E.core, E.ctx, .mperm, .workgroup, 0, 0, E.rows, [l], 0, false, E.sup, s.clkOf E.core, [], []⟩

/-- R219: an address of a sequencer resolves as its owner's workgroup would reach it. DESIGN CHOICE (log 90): the spec gives a sequencer no stack and names
no kind for a stack address there; it is taken as one of a reserved aperture, kind 4. -/
def Eng.resolve (E : Eng) (s : State) (va size : Nat) (w : Want) : Res :=
  match E with
  | .grp I => s.resolve I.c I.gr (lowest I.sp.mask) va size w
  | .seq c _ q =>
    if va / 2 ^ 60 = 0 then s.resolveGlobal c q.ctx va size w
    else if va / 2 ^ 60 = 15 then s.resolveLocal c q.wg va size
    else { kinds := 4 :: alignKinds va size }

/-- An engine instruction that reaches memory at one address: the wait of R354, and the lowest cause. -/
def Eng.reach (E : Eng) (s : State) (m : Bool) (access : Nat) (rs : List Ref) (go : State → State) : State :=
  match gateOf access rs with
  | .walk pages =>
    E.hold (pages.foldl (fun s p => if s.pageKnown E.core E.ctx p then s else s.startWalk (dieOf E.core) E.ctx p none) s)
      (.walk pages) m
  | .trap c k a =>
    let s := s.dropFaults E.core E.ctx rs
    match E with
    | .grp I => I.trapLanes s c k a
    | .seq n cp _ => s.seqStop n cp c
  | .go => go ((s.dropFaults E.core E.ctx rs).useTlbs E.core E.ctx rs)

/-- R219: MPERM: the split waits for the table's bytes. -/
def execMperm (m : Bool) (a : BitVec 6) (s : State) : Outcome State Fault Refusal :=
  engine m [addrOpd a] s fun E =>
    let va := (E.rd64 (a6 a)).toNat
    let rs : List Ref := [⟨lowest E.rows, va, E.resolve s va 128 reading⟩]
    let rs := match E with
      | .grp I => rs.map fun r => { r with lane := lowest I.sp.mask }
      | .seq _ _ _ => rs
    E.reach s m 0 rs fun s =>
      let o := E.permOp s ((rs.headD ⟨0, 0, {}⟩).acc [])
      let s := (s.addOp o).fetchOp o.op
      match E with
      | .grp I => match s.grp I.c I.g with
        | some g => s.setGrp I.c I.g ((((g.touched I.k).tick (some I.k)).hold I.k (.mperm o.op) m).settle)
        | none => s
      | .seq c cp q => s.setSeq c cp { q with wait := .mperm o.op }

/-- The engine issuer that waits for an MPERM's table; a record of the spill area stands at 32 and its place there. -/
def State.permWaiter (s : State) (o : Op) : Option Eng :=
  let k := s.core o.core
  if k.mseq.wait = .mperm o.op then some (.seq o.core false k.mseq)
  else if k.cseq.wait = .mperm o.op then some (.seq o.core true k.cseq)
  else match s.findUid o.uid with
    | none => none
    | some (c, g) => match s.grp c g with
      | none => none
      | some x => match x.slots.find? fun p => p.2.wait = .mperm o.op with
        | some (i, sp) => some (.grp ⟨c, g, i, x, sp⟩)
        | none => (x.spill.zipIdx.find? fun p => p.1.wait = .mperm o.op).map fun p => .grp ⟨c, g, 32 + p.2, x, p.1⟩

/-- R386: whether a saved split or sequencer waits for an MPERM's table. -/
def Image.awaitsPerm (im : Image) (op : Nat) : Bool :=
  decide (im.mseq.wait = .mperm op) || decide (im.cseq.wait = .mperm op)
    || im.groups.any fun p => p.2.slots.any (fun x => decide (x.2.wait = .mperm op)) || p.2.spill.any fun x => decide (x.wait = .mperm op)

/-- R20, R152, R204: whether an issuer may take its MPERM's cause (`turn` false), or have its table accepted: on a core that is not halted, in a
group that runs, with room in the queue and nobody who waits before it. A record of the spill area takes a cause once it is in a slot. -/
def Eng.permTurn (E : Eng) (s : State) (turn : Bool) : Bool :=
  let k := s.core E.core
  let first := match s.queueWaiters E.core true .matrixQueue with | [] => true | x :: _ => decide (x = E.who)
  !k.halted && (!turn || (decide (k.mqueue.length < 16) && first))
    && (match E with
        | .grp I => decide (I.gr.park = .run) && I.gr.trapPend.isNone && (!I.gr.sup || I.gr.handles I.sp) && (turn || decide (I.k < 4))
        | .seq _ _ q => decide (q.run = .running))

/-- R219: MPERM_DATA_ARRIVE. A table that is no permutation takes 0xA9; with no room for it in the queue the wait goes on. -/
def execMpermDataArrive (op : Nat) (s : State) : Outcome State Fault Refusal :=
  .next <|
    let s := s.performOp op
    match s.ops.look op with
    | none => s
    | some o =>
      if o.kind ≠ .mperm then s
      else if !o.performedLanes then s.fetchOp op
      else match s.permWaiter o with
        | none => if s.images.any fun im => im.awaitsPerm op then s else s.eraseOp op
        | some E =>
          let l := o.lanes.headD ⟨0, 0, .global, [], 0, [], none⟩
          let vals := o.table
          if decide (l.space.bank = none) && s.anyPoison l.pas then (s.eraseOp op).stopCtx o.core o.ctx 0xE3 else
          if !E.permTurn s (permOk vals) then s
          else if vals = [] then match E with
            | .grp I => (s.eraseOp op).raise I.c I.g I.k 0x78 (maskOf [l.lane]) [(l.lane, l.va)] I.sp.pc false
            | .seq c cp _ => (s.eraseOp op).seqStop c cp 0x78
          else if !permOk vals then E.trap (s.eraseOp op) 0xA9
          else
            let k := s.core E.core
            let k := { k with mqueue := k.mqueue ++ [⟨s.serial, E.src, E.ctx, E.wg, E.rows, E.sup, .mperm vals⟩] }
            let s := { s.eraseOp op with serial := s.serial + 1 }.setCore E.core k
            match E with
            | .grp I => s.modGrp I.c I.g fun g => g.wake fun y => decide (y.wait = .mperm op)
            | .seq c cp q => s.setSeq c cp q.next

/-- R216: MCTL_PERFORM: MZERO, the table of an MPERM, MBAND. -/
def execMctlPerform (core : Nat) (s : State) : Outcome State Fault Refusal :=
  .next <| match s.matrixHead core with
    | some o =>
      let k := s.core core
      match o.kind with
      | .mzero a => s.setCore core ((k.setAcc a ((k.acc a).fill o.rows (List.range 32) fun _ _ => 0)).popMatrix o.op [] (s.clkOf core))
      | .mperm t => s.setCore core (({ k with perm := t }).popMatrix o.op [] (s.clkOf core))
      | .mbandW w g => s.setCore core ((k.setSlot w { k.slot w with scale := g }).popMatrix o.op [] (s.clkOf core))
      | .mbandA a g => s.setCore core ((k.setAcc a { k.acc a with scale := g }).popMatrix o.op [] (s.clkOf core))
      | _ => s
    | none => s

/-! ### MACC (R224 to R227) -/

/-- R226: registers of a column quarter in a format. -/
def maccRegs (f : Nat) : Nat := if f = 6 then 8 else if f = 7 ∨ f = 8 then 4 else 2

/-- R224: the format of a MACC. -/
def maccFmt (f : BitVec 4) : Option Fmt := if 6 ≤ f.toNat ∧ f.toNat ≤ 10 then floatFmt f.toNat else none

/-- R225: the tile of a MACC must carry the format and be large enough. -/
def maccTileOk (F : Fmt) (f : BitVec 4) (t : Tile) : Bool :=
  decide (t.fmt = f ∧ t.geom = 0 ∧ 1024 * (F.bits / 8) ≤ 256 * t.size.toNat)

/-- R224, R225: a tile variant. -/
def maccTile (m : Bool) (f : BitVec 4) (x : BitVec 7) (c : BitVec 4) (s : State) (go : Eng → Nat → Nat → State) :
    Outcome State Fault Refusal :=
  engine m [] s fun E => match maccFmt f with
    | none => E.trap s 0x02
    | some F => E.accTile s m c x.toNat (fun e => maccTileOk F f ((s.core E.core).tile e)) (go E)

/-- R225: ACC2T. -/
def execAcc2t (m : Bool) (f : BitVec 4) (u : BitVec 1) (x : BitVec 7) (c : BitVec 4) (s : State) : Outcome State Fault Refusal :=
  maccTile m f x c s fun E a e => E.accept s m [] [e] (.acc2t e a f (decide (u = 1)))

/-- R225: T2ACC. -/
def execT2acc (m : Bool) (f : BitVec 4) (x : BitVec 7) (c : BitVec 4) (s : State) : Outcome State Fault Refusal :=
  maccTile m f x c s fun E a e => E.accept s m [e] [] (.t2acc e a f)

/-- R226: the registers that row L of a column quarter gives. -/
def accWords (F : Fmt) (sat : Bool) (a : Acc) (q L : Nat) : List Word :=
  toWords ((List.range 8).flatMap fun e => toBytes (F.bits / 8) (F.rne sat (fw (a.get L (8 * q + e)))))

/-- R226: writes the registers of an ACC2V. -/
def Group.acc2v (g : Group) (k : Core) (mask : Mask) (f : BitVec 4) (u : BitVec 1) (q : BitVec 2) (x : BitVec 7) (a : Nat) : Group :=
  match maccFmt f with
  | none => g
  | some F => g.wrN x.toNat (maccRegs f.toNat) mask fun L => accWords F (decide (u = 1)) (k.acc a) q.toNat L

/-- R226, R227: the checks of a register variant. -/
def Iss.maccRegOps (I : Iss) (s : State) (f : BitVec 4) (x : BitVec 7) (c : BitVec 4) : Sum (BitVec 8) Nat :=
  let r := maccRegs f.toNat
  if maccFmt f = none ∨ 96 ≤ x.toNat ∨ x.toNat % r ≠ 0 then .inl 0x02
  else match I.gr.check false ((fromN x.toNat r).map fun y => (y, 1)) with
    | some k => .inl k
    | none => match (Eng.grp I).acc s c.toNat with
      | none => .inl 0x04
      | some a => .inr a

/-- R226: ACC2V: at once where nothing accepted before it is left, else when that is so. -/
def execAcc2v (m : Bool) (f : BitVec 4) (u : BitVec 1) (q : BitVec 2) (x : BitVec 7) (c : BitVec 4) (s : State) :
    Outcome State Fault Refusal :=
  onSplit s fun I => match I.maccRegOps s f x c with
    | .inl k => I.trap s k
    | .inr a =>
      if (s.core I.c).mqueue = [] then I.done s (I.gr.acc2v (s.core I.c) I.sp.mask f u q x a) 2 m
      else s.setGrp I.c I.g (((I.gr.tick (some I.k)).hold I.k (.acc2v s.serial f u q x a) m).settle)

/-- The split of a slot, or from 32 on the record of that place in the spill area. -/
def Group.splitAt (g : Group) (slot : Nat) : Option Split := if slot < 32 then g.slots.look slot else g.spill[slot - 32]?

/-- R226: ACC2V_COMPLETE. -/
def execAcc2vComplete (core grp slot : Nat) (s : State) : Outcome State Fault Refusal :=
  .next <| match s.grp core grp with
    | none => s
    | some g => match g.splitAt slot with
      | none => s
      | some sp => match sp.wait with
        | .acc2v upto f u q x a =>
          if (s.core core).halted || (s.core core).mqueue.any fun o => decide (o.op < upto) then s
          else s.setGrp core grp ((g.acc2v (s.core core) sp.mask f u q x a).wake fun y => decide (y = sp))
        | _ => s

/-- R226, R227: the eight elements that a lane's registers hold, widened to f32. -/
def regElems (F : Fmt) (ws : List Word) : List Word :=
  let bytes := fromWords ws
  let w := F.bits / 8
  (List.range 8).map fun e => wf32 (F.decode (ofBytes ((bytes.drop (w * e)).take w)))

/-- R227: V2ACC. -/
def execV2acc (m : Bool) (f : BitVec 4) (q : BitVec 2) (x : BitVec 7) (c : BitVec 4) (s : State) : Outcome State Fault Refusal :=
  onSplit s fun I => match I.maccRegOps s f x c, maccFmt f with
    | .inl k, _ => I.trap s k
    | .inr _, none => I.trap s 0x02
    | .inr a, some F =>
      (Eng.grp I).accept s m [] []
        (.v2acc a q.toNat ((lanes I.sp.mask).map fun L => (L, regElems F (I.gr.rdN x.toNat (maccRegs f.toNat) L))))

/-- R225: the bytes that ACC2T writes. -/
def tileCells (F : Fmt) (sat : Bool) (at_ : Nat) (rows : Mask) (a : Acc) : List (Nat × Byte) :=
  let w := F.bits / 8
  (lanes rows).flatMap fun i => (List.range 32).flatMap fun c =>
    cellsOf (at_ + w * (32 * i + c)) w (F.rne sat (fw (a.get i c)))

/-- R225, R227: MACC_PERFORM. -/
def execMaccPerform (core : Nat) (s : State) : Outcome State Fault Refusal :=
  .next <| match s.matrixHead core with
    | some o =>
      let k := s.core core
      match o.kind with
      | .acc2t e a f sat =>
        let F := (maccFmt f).getD f32
        s.setCore core ((k.lsWrite (tileCells F sat (k.tileAt e) o.rows (k.acc a))).popMatrix o.op [e] (s.clkOf core))
      | .t2acc e a f =>
        let F := (maccFmt f).getD f32
        let w := F.bits / 8
        let at_ := k.tileAt e
        let elem (i c : Nat) : Word := wf32 (F.decode (ofBytes ((fromN (at_ + w * (32 * i + c)) w).map fun b => k.ls.get 0 b)))
        s.setCore core ((k.setAcc a ((k.acc a).fill o.rows (List.range 32) elem)).popMatrix o.op [e] (s.clkOf core))
      | .v2acc a q rows =>
        let elem (i c : Nat) : Word := (SMap.get [] rows i).getD (c - 8 * q) 0
        s.setCore core ((k.setAcc a ((k.acc a).fill o.rows (fromN (8 * q) 8) elem)).popMatrix o.op [] (s.clkOf core))
      | _ => s
    | none => s

/-! ### MLDB (R220 to R223) -/

/-- R220, R201: a run of stream bytes in one place: its store, the virtual page and attribute word of global memory, and the bytes' addresses. -/
structure StreamPart where
  space : Space
  page : Option (Nat × BitVec 24)
  pas : List Nat
deriving Repr

/-- R220: a run of stream bytes: the kinds that it meets, with the address of the first byte in each, and where it lies. -/
def State.streamRefs (s : State) (core ctx wg va n : Nat) : List (Nat × Nat) × List StreamPart :=
  if va / 2 ^ 60 = 15 then
    let r := s.resolveLocal core wg va 1
    let last := (s.resolveLocal core wg (va + n - 1) 1).kinds
    let first := ((fromN va n).find? fun a => (s.resolveLocal core wg a 1).kinds ≠ []).getD va
    ((r.kinds ++ last).map fun k => (k, first), [⟨r.space, none, fromN (r.pas.headD 0) n⟩])
  else if va / 2 ^ 60 ≠ 0 then ([(4, va)], [])
  else
    let one (a : Nat) : List (Nat × Nat) :=
      let r := s.coreRes core ctx a reading
      (r.kinds.map fun k => (k, a)) ++ if r.kinds = [] ∧ formatOk r.leaf = false then [(2, a)] else []
    let part (a : Nat) : StreamPart :=
      let r := s.coreRes core ctx a reading
      let sp : Space := if leafBit r.leaf 8 then .window ((s.windowAt ctx a).getD 0) else if leafBit r.leaf 7 then .host else .global
      ⟨sp, some (pageOf a, BitVec.ofNat 24 r.leaf), fromN r.pa (min (va + n) ((pageOf a + 1) * 65536) - a)⟩
    ((pagesOf va n).flatMap one, (pagesOf va n).map part)

/-- R221: popcount of the presence mask, and the units of a B format. -/
def presentUnits (x : Nat) : List Nat := (List.range 80).filter fun u => leafBit x u
def unitsOf (b : Nat) : Nat := if b = 4 then 68 else if b = 5 then 80 else 64

/-- R222: an invalid header. -/
def headerBad (x : Nat) : Bool :=
  let b := x / 2 ^ 80 % 16
  decide (5 < b) || decide (x / 2 ^ 84 ≠ 0) || (presentUnits x).any fun u => decide (unitsOf b ≤ u)

/-- R221: the expanded image. -/
def expand (x : Nat) (body : List Byte) : SMap Byte :=
  ((presentUnits x).zipIdx.foldl (fun img p =>
    (List.range 32).foldl (fun img j => SMap.set 0 img (32 * p.1 + j) (body.getD (32 * p.2 + j) 0)) img) [])

/-- The result of a stream's read: own atomics in its way, poisoned data (R322), a failure with its cause and address, or the bytes. -/
inductive StreamRead where
  | held
  | poison
  | fail (cause : BitVec 8) (va : Nat)
  | ok (bytes : List Byte)
deriving Repr

/-- The sectors of a part that lies in memory. -/
def StreamPart.secs (x : StreamPart) : List Nat :=
  match x.space with
  | .loc _ | .window _ => []
  | _ => (runs (x.pas.map sectorOf)).eraseDups

/-- R201, R220: the bytes of a part as its store holds them, under the earlier stores of its issuer that are still on their way (R183). DESIGN CHOICE
(log 108): tile bytes that a queued ACC2T of the group has still to write are read as the bank holds them (R225). -/
def State.partBytes (s : State) (core ctx : Nat) (src : Source) (x : StreamPart) : List Byte :=
  let own := s.ownCells src x.space.bank
  let at_ (a : Nat) : Byte := match x.space with
    | .loc c => s.lsGet c ctx a
    | .window w => s.windowByte w a
    | _ => s.dieView (dieOf core) a
  x.pas.map fun a => (latest own a).getD (at_ a)

/-- R339: whether a byte of a part cannot be corrected. -/
def State.partBad (s : State) (core ctx : Nat) (x : StreamPart) (a : Nat) : Bool :=
  match x.space with
  | .loc c => s.locBad c ctx [a]
  | .window _ => false
  | _ => s.anyBad [a] || s.sramBad 2 (dieOf core) [a]

/-- R65, R346, R353: what a read of a run of stream bytes does on its way: the pages are loaded into the TLBs, shadows are rounded, and the lines and
tokens that the die lacks are asked for. -/
def State.openStream (s : State) (core ctx wg va n : Nat) : State :=
  let s := if va / 2 ^ 60 = 0 then s.loadTlbs core ctx va n else s
  let r := s.streamRefs core ctx wg va n
  if r.1 ≠ [] then s
  else r.2.foldl (fun s x => (s.roundSectors x.secs).fetchSecs core ctx false (fun _ => x.page) x.secs) s

/-- R220: a run of stream bytes at die scope; the lowest cause that it meets. -/
def State.readStream (s : State) (core ctx wg : Nat) (src : Source) (va n : Nat) : StreamRead :=
  let r := s.streamRefs core ctx wg va n
  match leastBy (fun p : Nat × Nat => p.1) ((alignKinds va 16).map (fun k => (k, va)) ++ r.1) with
  | some (k, a) => .fail (BitVec.ofNat 8 (0x45 + 8 * k)) a
  | none =>
    let flat := r.2.flatMap fun x => x.pas.map fun a => (x, a)
    if r.2.any fun x => s.ownAtomic src x.space.bank x.pas then .held
    else if r.2.any fun x => x.space.bank.isNone && s.anyPoison x.pas then .poison
    else if (!s.badSectors.isEmpty || !s.badSram.isEmpty) && flat.any fun p => s.partBad core ctx p.1 p.2 then
      .fail 0x7D (va + ((flat.findIdx? fun p => s.partBad core ctx p.1 p.2).getD 0))
    else .ok (r.2.flatMap (s.partBytes core ctx src))

/-- R313: the sectors of a run of stream bytes that the die cannot read yet. -/
def State.streamNeeds (s : State) (core ctx wg va n : Nat) : List (Nat × Option (Nat × BitVec 24)) :=
  (s.streamRefs core ctx wg va n).2.flatMap fun x => (x.secs.filter fun y => !(s.tok (dieOf core) y).canRead).map fun y => (y, x.page)

/-- R220 to R222: the whole stream, its header, then its units, read in one step. -/
def State.loadStream (s : State) (core ctx wg : Nat) (src : Source) (va : Nat) : StreamRead × State :=
  let s := s.openStream core ctx wg va 16
  match s.readStream core ctx wg src va 16 with
  | .ok h =>
    let x := ofBytes h
    let n := 16 + 32 * (presentUnits x).length
    if headerBad x then (.fail 0xAA 0, s)
    else (((s.openStream core ctx wg va n).readStream core ctx wg src va n), s.openStream core ctx wg va n)
  | r => (r, s)

/-- R220, R223: what an MLDB of an operation number keeps of its read. -/
def State.keepStream (s : State) (core ctx wg op va : Nat) (r : StreamRead) : State :=
  let x : Stream := match r with
    | .ok bytes => { bytes := bytes, need := s.streamNeeds core ctx wg va bytes.length }
    | .fail c a => { fail := some (c, a) }
    | _ => {}
  s.setCore core { s.core core with streams := (s.core core).streams.put op x }

/-- R220: MLDB: its stream is read as it is accepted, in one step. DESIGN CHOICE (log 81): where an atomic of its group that has not executed stands
between it and a byte (R183), its acceptance waits. -/
def execMldb (m : Bool) (w : BitVec 3) (a : BitVec 6) (s : State) : Outcome State Fault Refusal :=
  engine m [addrOpd a] s fun E =>
    let va := E.rd64 (a6 a)
    if !s.matrixRoom E.core E.who then E.hold s .matrixQueue m
    else match s.loadStream E.core E.ctx E.wg E.src va.toNat with
      | (.held, _) => E.hold s .matrixQueue m
      | (r, t) =>
        let t := E.accept (t.keepStream E.core E.ctx E.wg t.serial va.toNat r) m [] [] (.mldb w.toNat va)
        match r with
        | .poison => t.stopCtx E.core E.ctx 0xE3
        | _ => t

/-- R234: the MLDBs of a core whose data had not all arrived at the save are accepted afresh, and read memory as it stands. -/
def State.rereadStreams (s : State) (core : Nat) : State :=
  (s.core core).mqueue.foldl (fun s o => match o.kind with
    | .mldb _ addr =>
      if ((s.core core).streams.look o.op).isSome then s
      else
        let r := s.loadStream core o.ctx o.wg (.seq core false) addr.toNat
        let t := r.2.keepStream core o.ctx o.wg o.op addr.toNat r.1
        match r.1 with
        | .poison => t.stopCtx core o.ctx 0xE3
        | _ => t
    | _ => s) s

/-- R234: what a save keeps of the streams: those whose data had all arrived. -/
def Core.arrivedStreams (k : Core) : SMap Stream := k.streams.filter fun p => p.2.need.isEmpty

/-- R20, R223: a failed MLDB marks its slot; a group's cause is deferred, with the address of the faulting byte, or 0 outside the memory class; a sequencer
stops. With no room for a deferred record the operation stays at the head of the queue. -/
def State.failMldb (s : State) (core : Nat) (o : MatrixOp) (w : Nat) (cause : BitVec 8) (va : Nat) : State :=
  let k := s.core core
  let done (s : State) : State := s.setCore core (((s.core core).setSlot w { k.slot w with mark := true }).popMatrix o.op [] (s.clkOf core))
  match o.src with
  | .seq c cp => (done s).seqStop c cp cause
  | .grp uid =>
    if o.sup then (done s).stopCtx core o.ctx 0xEC
    else match s.getUid uid with
      | none => done s
      | some g => match g.defer cause ((lanes o.rows).map fun L => (L, BitVec.ofNat 64 va)) false with
        | some _ => done (s.modUid uid fun g => g.deferred_ cause ((lanes o.rows).map fun L => (L, BitVec.ofNat 64 va)))
        | none => s

/-- R220, R221: the slot that a stream gives, written in one step with its tag and its mark. -/
def Core.load (k : Core) (op w : Nat) (bytes : List Byte) (now : Nat) : Core :=
  let x := ofBytes (bytes.take 16)
  (k.setSlot w { k.slot w with image := expand x (bytes.drop 16), tag := BitVec.ofNat 4 (x / 2 ^ 80), mark := false }).popMatrix op [] now

/-- R220, R223: the oldest operation, where it is an MLDB whose data has all arrived, is performed or fails. -/
def State.performLoad (s : State) (core : Nat) : State :=
  match s.matrixHead core with
  | some o => match o.kind, (s.core core).streams.look o.op with
    | .mldb w _, some x =>
      if x.need ≠ [] then s
      else match x.fail with
        | some (c, a) => s.failMldb core o w c a
        | none => s.setCore core ((s.core core).load o.op w x.bytes (s.clkOf core))
    | _, _ => s
  | none => s

/-- R220, R313, R344: the tokens that a core's MLDBs lack are asked for again; miss buffers of those that have come return their tokens. -/
def State.refetchStreams (s : State) (core : Nat) : State :=
  let d := dieOf core
  (s.core core).streams.foldl (fun s p =>
    if p.2.need.isEmpty then s
    else
      let got := p.2.need.filter fun n => (s.tok d n.1).canRead
      let left := p.2.need.filter fun n => !(s.tok d n.1).canRead
      let ctx := (((s.core core).mqueue.find? fun o => o.op = p.1).map fun o => o.ctx).getD 0
      let s := s.setCore core { s.core core with streams := (s.core core).streams.put p.1 { p.2 with need := left } }
      let s := left.foldl (fun s n => s.fetchSecs core ctx false (fun _ => n.2) [n.1]) s
      got.foldl (fun s n => s.releaseBuffer d n.1) s) s

/-- R205, R220, R223: MLDB_COMPLETE: at its turn in the queue, its data arrived, the first MLDB's image, tag and mark are written in one step, or it
fails. -/
def execMldbComplete (core : Nat) (s : State) : Outcome State Fault Refusal :=
  .next <| if (s.core core).halted then s else (s.refetchStreams core).performLoad core

/-- R215: NARROW_MODE_CHANGE: the sequencer follows its die's power alarm between two operations. -/
def execNarrowModeChange (core : Nat) (s : State) : Outcome State Fault Refusal :=
  .next (s.setCore core { s.core core with narrow := s.regs.alarm.getLsbD (dieOf core) })

end Sys2Proof.Machine
end

