-- ==== Sys2Proof/Machine/Copy.lean ====
section
/-! DEFINITION. The block-transfer engine (R236 to R250): acceptance and completion of BCOPY and LCOPY, layout records, the status word,
and copy batches. -/

namespace Sys2Proof.Machine

open Host (Outcome)

/-! ### Layout records (R240) -/

/-- R240: a tensor layout record. -/
structure Layout where
  rank : Nat
  e : Nat
  dims : List Nat
  /-- byte distances of dimensions 1 to 3 -/
  strides : List Nat
  boxes : List Nat
  reserved : Bool
deriving DecidableEq, Repr

def layoutOf (b : List Byte) : Layout :=
  let n (at_ k : Nat) : Nat := ofBytes ((b.drop at_).take k)
  { rank := n 0 1 % 8
    e := n 2 2
    dims := (List.range 4).map fun i => n (0x04 + 4 * i) 4
    strides := (List.range 3).map fun i => n (0x14 + 8 * i) 8
    boxes := (List.range 4).map fun i => n (0x2C + 2 * i) 2
    reserved := decide (n 0 1 / 8 ≠ 0 ∨ n 1 1 ≠ 0 ∨ n 0x34 12 ≠ 0) }

/-- R240: the element alignment A. -/
def Layout.align (l : Layout) : Nat := if l.e ≤ 8 then l.e else 16
/-- The box extent of a dimension; one past the rank counts as 1 (R244). -/
def Layout.box (l : Layout) (k : Nat) : Nat := if k < l.rank then l.boxes.getD k 0 else 1
def Layout.bytes (l : Layout) : Nat := l.e * l.box 0 * l.box 1 * l.box 2 * l.box 3
/-- The byte distance of a dimension. -/
def Layout.stride (l : Layout) (k : Nat) : Nat := if k = 0 then l.e else l.strides.getD (k - 1) 0

/-- R240: a valid record. -/
def Layout.valid (l : Layout) : Bool :=
  decide (1 ≤ l.rank ∧ l.rank ≤ 4)
    && (decide (l.e = 1 ∨ l.e = 2 ∨ l.e = 4 ∨ l.e = 8) || decide (l.e % 16 = 0 ∧ 16 ≤ l.e ∧ l.e ≤ 1024))
    && ((List.range 4).all fun k =>
      let dim := l.dims.getD k 0
      let box := l.boxes.getD k 0
      let stride := if k = 0 then 0 else l.stride k
      if k < l.rank then decide (dim ≠ 0 ∧ box ≠ 0 ∧ stride % l.align = 0 ∧ stride < 2 ^ 52)
      else decide (dim = 0 ∧ box = 0 ∧ stride = 0))
    && decide (l.bytes ≤ 2 ^ 22) && !l.reserved

/-- R244: an element of the box: its place in the dense box and, inside the tensor, its distance from the base. -/
structure Elem where
  loc : Nat
  dist : Option Nat
deriving DecidableEq, Repr

/-- R244: the elements of a box. -/
def Layout.elems (l : Layout) (x : List Int) : List Elem :=
  (List.range (l.box 3)).flatMap fun i3 => (List.range (l.box 2)).flatMap fun i2 =>
    (List.range (l.box 1)).flatMap fun i1 => (List.range (l.box 0)).map fun i0 =>
      let at_ (k i : Nat) : Int := if k < l.rank then x.getD k 0 + i else 0
      let xs := [at_ 0 i0, at_ 1 i1, at_ 2 i2, at_ 3 i3]
      let inside := (List.range l.rank).all fun k => decide (0 ≤ xs.getD k 0) && decide (xs.getD k 0 < l.dims.getD k 0)
      let dist := (List.range l.rank).foldl (fun a k => a + (xs.getD k 0).toNat * l.stride k) 0
      ⟨(((i3 * l.box 2 + i2) * l.box 1 + i1) * l.box 0 + i0) * l.e, if inside then some dist else none⟩

/-! ### Bounds and status (R3, R4, R237) -/

/-- R3, R246: the bound of a copy. -/
def copyBound (near : Bool) (bytes : Nat) : Nat := 2600 + ceilDiv (bytes * 13) (if near then 1280 else 320)

/-- R246: whether a physical address lies in the home group of a die. -/
def nearPa (d pa : Nat) : Bool := decide (pa < hostBase ∧ pa / 2 ^ 44 = d)

/-- The cause that the status reports: the lowest. -/
def CopyOp.cause (o : CopyOp) : Nat := (leastBy id o.causes).getD 0

/-- R237, R331: the status word of a block copy; the host's own answer time does not count against its bound. -/
def CopyOp.status (o : CopyOp) (now : Nat) : Word :=
  let late := decide (o.accepted + copyBound o.near o.bytes + o.excused < now)
  BitVec.ofNat 32 (o.cause + late.toNat * 2 ^ 8 + (if o.cause = 0 then ceilDiv o.bytes 512 else 0) * 2 ^ 9)

/-! ### The queues -/

/-- R243: entries of a queue whose copies still run. -/
def Core.copyCount (k : Core) (store : Bool) : Nat := (if store then k.storeQ else k.loadQ).length

/-- R243: whether an issuer's copy is accepted now. -/
def State.copyRoom (s : State) (c : Nat) (store : Bool) (who : Issuer) : Bool :=
  decide ((s.core c).copyCount store < 16)
    && (match s.queueWaiters c false (.copyQueue store) with
        | [] => true
        | x :: _ => decide (x = who))

/-- R243: COPY_QUEUE_ACCEPT: with room in a queue of a core that is not halted (R385), it is the turn of the first who waits for it. -/
def execCopyQueueAccept (core : Nat) (s : State) : Outcome State Fault Refusal :=
  let first (store : Bool) : Option Issuer :=
    if (s.core core).copyCount store < 16 then (s.queueWaiters core false (.copyQueue store)).head? else none
  .next <| if (s.core core).halted then s
    else match first false, first true with
      | some w, _ => { s with agenda := s.queueTurn w :: s.agenda }
      | none, some w => { s with agenda := s.queueTurn w :: s.agenda }
      | none, none => s

def Core.addCopy (k : Core) (o : CopyOp) : Core :=
  if o.store then { k with storeQ := k.storeQ ++ [o] } else { k with loadQ := k.loadQ ++ [o] }
def Core.modCopy (k : Core) (op : Nat) (f : CopyOp → CopyOp) : Core :=
  let g (o : CopyOp) : CopyOp := if o.op = op then f o else o
  { k with loadQ := k.loadQ.map g, storeQ := k.storeQ.map g }
def Core.dropCopy (k : Core) (op now : Nat) : Core :=
  { k with
    loadQ := k.loadQ.filter fun o => decide (o.op ≠ op)
    storeQ := k.storeQ.filter fun o => decide (o.op ≠ op)
    progress := now }

/-- The accepted copy of a number, not yet completed. -/
def State.copyOf (s : State) (op : Nat) : Option CopyOp :=
  s.cores.findSome? fun p => (p.2.loadQ ++ p.2.storeQ).find? fun o => decide (o.op = op)

def State.setCopy (s : State) (o : CopyOp) : State := s.setCore o.eng ((s.core o.eng).modCopy o.op fun _ => o)

/-- R185: an engine instruction that counts as a memory instruction waits for its split's acquires. -/
def engineMem (m : Bool) (ops : Eng → List Opd) (s : State) (f : Eng → State) : Outcome State Fault Refusal :=
  onBoth s
    (fun I =>
      if I.sp.acq ≠ [] then s.setGrp I.c I.g (I.gr.hold I.k .acquire m)
      else match I.gr.check false (ops (.grp I)) with
        | some c => I.trap s c
        | none => f (.grp I))
    (fun c cp => seqRun s c cp m (ops (.seq c cp ((s.core c).seqOf cp))) fun q => f (.seq c cp q))

/-! ### The engine's work (R239, R244, R245) -/

/-- R54, R55: the attribute [21:15] of a page, and that of a tile. -/
def attrOf (leaf : Nat) : Nat := leaf / 2 ^ 15 % 2 ^ 7
def Tile.attr (t : Tile) : Nat := t.fmt.toNat + t.geom.toNat * 16

/-- An access of the copy's group, earlier than the copy, to a byte of a bank, not performed yet. -/
def State.ownBank (s : State) (o : CopyOp) (b : Option Nat) (a : Nat) : Bool :=
  match o.src with
  | .seq _ _ => false
  | .grp uid =>
    s.ops.any fun p => decide (p.2.uid = uid ∧ p.2.op < o.op)
      && p.2.lanes.any fun l => l.val.isNone && decide (l.space.bank = b) && l.pas.contains a

/-- Where the byte of a generic address of the tensor's side is. -/
def State.tensorEnd (s : State) (core ctx va : Nat) (w : Want) : CopyEnd :=
  let r := s.coreRes core ctx va w
  if leafBit r.leaf 8 then .window ((s.windowAt ctx va).getD 0) r.pa else .mem r.pa

/-- R245: what the tensor's bytes of an element meet: memory-class causes, and 0x53 for a fill. -/
def State.elemCauses (s : State) (o : CopyOp) (va n : Nat) (attr : Option Nat) : List Nat :=
  let w := if o.store then writing else reading
  (pagesOf va n).flatMap fun a =>
    let r := s.coreRes o.eng o.ctx a w
    let kinds := r.kinds ++ if r.kinds = [] ∧ o.store = false ∧ leafBit r.leaf 8 then [1] else []
    (kinds.map fun k => 0x40 + 8 * k + (if o.store then 4 else 3))
      ++ (match attr with
          | some x => if kinds = [] ∧ (attrOf r.leaf ≠ x ∨ formatOk r.leaf = false) then [0x53] else []
          | none => [])

/-- The room of a local side that has no place. -/
def nowhere : Nat := 2 ^ 64

/-- R175, R245: the local side of a copy: its kinds of tag and rank, its core, its first byte there, and the bytes from that on. -/
def State.localSide (s : State) (o : CopyOp) : List Nat × Nat × Nat × Nat :=
  match o.tile with
  | some e => ([], o.core, (s.core o.core).tileAt e + o.loc, 256 * ((s.core o.core).tile e).size.toNat - o.loc)
  | none =>
    if o.loc / 2 ^ 60 ≠ 15 then ([4], o.core, 0, nowhere)
    else match s.gangMember o.core o.wg (o.loc / 2 ^ 58 % 4) with
      | some (c, x) => ([], c, x.base + o.loc % 2 ^ 58, x.size - o.loc % 2 ^ 58)
      | none => ([6], o.core, 0, nowhere)

/-- The accesses, for R166, of a copy's tensor side and of its local side. -/
def CopyOp.tensorAccess (o : CopyOp) : Nat := if o.store then 4 else 3
def CopyOp.localAccess (o : CopyOp) : Nat := if o.store then 3 else 4

/-- R245: what the record's read meets. -/
def State.recordCauses (s : State) (o : CopyOp) : List Nat :=
  let r := s.coreRes o.eng o.ctx o.record reading
  let kinds := r.kinds ++ alignKinds o.record 64 ++ if r.kinds = [] ∧ leafBit r.leaf 8 then [1] else []
  kinds.map fun k => 0x43 + 8 * k

/-- R346, R358: the page that an agent's access goes through, with its attribute word. -/
def pageOfRes (va : Nat) (r : Phys) : Option (Nat × BitVec 24) := some (pageOf va, BitVec.ofNat 24 r.leaf)

/-- R358: the page through which a copy reaches a sector. -/
def CopyOp.pageAt (o : CopyOp) (sec : Nat) : Option (Nat × BitVec 24) := o.pages.look (sec / 1024)

/-! ### What a copy reads (R246, R286): at its acceptance, in one step, after the earlier events of its group -/

/-- The store that a place of a copy belongs to. -/
def CopyEnd.bank : CopyEnd → Option Nat
  | .loc c _ => some c
  | .window w _ => some (1000 + w)
  | _ => none

/-- The address of a place in its store. -/
def CopyEnd.at_ : CopyEnd → Nat
  | .mem a | .loc _ a | .window _ a => a
  | .zero => 0

/-- The sectors of memory among some places. -/
def endSecs (l : List CopyEnd) : List Nat :=
  (runs (l.filterMap fun x => match x with | .mem a => some (sectorOf a) | _ => none)).eraseDups

/-- The stores among some places. -/
def endBanks (l : List CopyEnd) : List (Option Nat) := (l.map CopyEnd.bank).eraseDups

/-- R183, R246: the bytes that stores of the copy's group have still to write to the stores that it reads. -/
def State.ownEnds (s : State) (o : CopyOp) (l : List CopyEnd) : List (Option Nat × List (Nat × Byte)) :=
  (endBanks l).map fun b => (b, s.ownCells o.src b)

/-- R183, R225: an atomic of the copy's group has still to execute on a byte that the copy reads, or an ACC2T to write a local store that it reads other
than through a tile. -/
def State.endsHeld (s : State) (o : CopyOp) (l : List CopyEnd) : Bool :=
  (endBanks l).any fun b => s.ownAtomic o.src b ((l.filter fun x => decide (x.bank = b)).map CopyEnd.at_)
    || (o.tile.isNone && b.any (fun c => decide (c < 1000)) && (match o.src with | .grp uid => s.tileStores uid s.serial | .seq _ _ => false))

/-- R246, R247, R277, R284: the byte of a place at acceptance. A pending write of the die gives it before it has merged; the copy then waits until it has. -/
def State.endByte (s : State) (o : CopyOp) (own : List (Option Nat × List (Nat × Byte))) (x : CopyEnd) : Byte :=
  let mine := ((own.find? fun p => decide (p.1 = x.bank)).bind fun p => latest p.2 x.at_)
  match x with
  | .zero => 0
  | .loc c a => mine.getD (s.lsGet c o.ctx a)
  | .window w a => mine.getD (s.windowByte w a)
  | .mem a => mine.getD (s.dieView (dieOf o.eng) a)

/-- R339: whether a place's word cannot be corrected. -/
def State.endBad (s : State) (o : CopyOp) (x : CopyEnd) : Bool :=
  match x with
  | .loc c a => s.locBad c o.ctx [a]
  | .mem a => s.anyBad [a] || s.sramBad 2 (dieOf o.eng) [a]
  | _ => false

/-- R322: whether a place holds poisoned data. -/
def State.endPoison (s : State) (x : CopyEnd) : Bool := match x with | .mem a => s.anyPoison [a] | _ => false

/-- R244, R245: the copy once its record is read: the causes of its checks and the bytes to move. None where its acceptance has to wait. -/
def State.planBox (s : State) (o : CopyOp) (l : Layout) : Option (CopyOp × State) :=
  let w := if o.store then writing else reading
  let far := decide (o.base / 2 ^ 52 ≠ 0)
  let elems := if far then [] else l.elems o.origin
  let inside := elems.filterMap fun x => x.dist
  let pages := (inside.flatMap fun n => pagesOf (o.base + n) l.e).eraseDups
  let s := pages.foldl (fun s a => s.loadTlbs o.eng o.ctx a 1) s
  let bad (x : Elem) : List Nat := match x.dist with
    | some n => s.elemCauses o (o.base + n) l.e o.attr
    | none => []
  let sides := ((alignKinds o.base l.align).map fun k => 0x40 + 8 * k + o.tensorAccess)
    ++ ((alignKinds o.loc l.align ++ if o.lroom < l.bytes then [6] else []).map fun k => 0x40 + 8 * k + o.localAccess)
  let ends (x : Elem) : List (CopyEnd × CopyEnd) := (List.range l.e).filterMap fun i =>
    let here := CopyEnd.loc o.lcore (o.lfirst + x.loc + i)
    match x.dist with
    | none => if o.store then none else some (.zero, here)
    | some n =>
      let there := s.tensorEnd o.eng o.ctx (o.base + n + i) w
      some (if o.store then (here, there) else (there, here))
  let good := if o.void ∨ sides ≠ [] ∨ o.lroom = nowhere then [] else elems.filter fun x => decide (bad x = [])
  let moves := good.flatMap ends
  let srcs := moves.map Prod.fst
  if s.endsHeld o srcs then none
  else
    let frame (m : SMap (Nat × BitVec 24)) (a : Nat) : SMap (Nat × BitVec 24) :=
      let r := s.coreRes o.eng o.ctx a w
      match if r.kinds = [] then pageOfRes a r else none with
      | some p => m.put (r.pa / 65536) p
      | none => m
    let o : CopyOp := { o with
      bytes := l.bytes
      near := !far && pages.all fun a => let r := s.coreRes o.eng o.ctx a w; decide (r.kinds = []) && nearPa (dieOf o.eng) r.pa
      pages := pages.foldl frame o.pages }
    let s := if o.store then
        (pages.filter fun a => decide ((s.coreRes o.eng o.ctx a w).kinds = [])).foldl (fun s a => s.markDirty o.eng o.ctx (pageOf a)) s
      else s
    let secs := endSecs srcs
    let s := (s.roundSectors secs).fetchSecs o.eng o.ctx false o.pageAt secs
    let own := s.ownEnds o srcs
    let lost := srcs.any (s.endBad o)
    some ({ o with
      causes := o.causes ++ sides ++ (elems.flatMap bad).eraseDups ++ if lost then [0x78 + if o.store then o.localAccess else 3] else []
      poison := o.poison || srcs.any s.endPoison
      reads := (o.reads ++ secs).eraseDups
      need := (o.reads ++ secs).eraseDups.filter fun x => !(s.tok (dieOf o.eng) x).canRead
      cells := (moves.filter fun p => !s.endBad o p.1).map fun p => ⟨p.2, s.endByte o own p.1, 0⟩ }, s)

/-- R239, R245: what acceptance does with a BCOPY: the checks that need no record, the local side, the record's read and the box. None where an atomic
of the group stands before a byte that it reads. -/
def State.openCopy (s : State) (o : CopyOp) : Option (CopyOp × State) :=
  let s := (s.loadTlbs o.eng o.ctx o.base 1).loadTlbs o.eng o.ctx o.record 1
  let side := s.localSide o
  let causes := o.causes ++ (if o.base / 2 ^ 52 ≠ 0 then [0x60 + o.tensorAccess] else [])
    ++ (side.1.map fun k => 0x40 + 8 * k + o.localAccess) ++ s.recordCauses o
  let o : CopyOp := { o with
    causes := causes
    lcore := side.2.1
    lfirst := side.2.2.1
    lroom := side.2.2.2
    attr := if o.store then none else o.tile.map fun e => ((s.core o.core).tile e).attr }
  if s.recordCauses o ≠ [] then some (o, s)
  else
    let r := s.coreRes o.eng o.ctx o.record reading
    let at_ := (fromN r.pa 64).map CopyEnd.mem
    let o : CopyOp := { o with pages := [(r.pa / 65536, (pageOf o.record, BitVec.ofNat 24 r.leaf))] }
    let s := (s.roundSectors (endSecs at_)).fetchSecs o.eng o.ctx false o.pageAt (endSecs at_)
    let o : CopyOp := { o with
      reads := endSecs at_
      need := (endSecs at_).filter fun x => !(s.tok (dieOf o.eng) x).canRead
      poison := at_.any s.endPoison }
    if s.endsHeld o at_ then none
    else if at_.any (s.endBad o) then some ({ o with causes := o.causes ++ [0x7B] }, s)
    else
      let l := layoutOf (at_.map (s.endByte o (s.ownEnds o at_)))
      if l.valid then s.planBox o l else some ({ o with causes := o.causes ++ [0xA0] }, s)

/-- R313: the sectors that the engine's die still lacks are asked for again; miss buffers of those that have come return their tokens. -/
def State.refetchCopy (s : State) (o : CopyOp) : CopyOp × State :=
  let d := dieOf o.eng
  let left := o.need.filter fun x => !(s.tok d x).canRead
  let o' : CopyOp := { o with need := left }
  let s := (s.setCopy o').fetchSecs o.eng o.ctx false o.pageAt left
  (o', (o.need.filter fun x => !left.contains x).foldl (fun s x => s.releaseBuffer d x) s)

/-- R246: an earlier write of the copy's group stands between it and a sector that it reads: not performed, or, for a copy that reads merged values,
pending at its die in the sector's line. -/
def State.ownPending (s : State) (o : CopyOp) (sec : Nat) : Bool :=
  match o.src with
  | .seq _ _ => false
  | .grp uid =>
    (s.ops.any fun p => decide (p.2.uid = uid ∧ p.2.op < o.op) && p.2.kind.writes
      && p.2.lanes.any fun l => l.val.isNone && decide (l.space.bank = none) && l.pas.any fun x => decide (x / 256 = sec / 4))
    || (!o.lane && (s.die (dieOf o.eng)).pw.any fun w => w.holds uid o.op && decide (w.sector / 4 = sec / 4))

/-- R246, R284: everything that a copy reads has come: its tokens, and, for merged values, the merges of the writes that stood pending at its die when it
read them. -/
def State.copyRead (s : State) (o : CopyOp) : Bool :=
  o.need.isEmpty && !(o.reads.any fun x => s.ownPending o x
    || (!o.lane && (s.die (dieOf o.eng)).pw.any fun w => decide (w.sector = x ∧ w.serial < o.op)))

/-! ### BCOPY at issue (R241 to R243, R55) -/

/-- R236, R239, R286: a copy that the engine has accepted and read enters its queue; it counts among its issuer's new copies (R249),
and its status is pending. -/
def Eng.issueCopy (E : Eng) (s : State) (m flag : Bool) (d : BitVec 7) (o : CopyOp) : State :=
  let s := s.setCore o.core ((s.core o.core).addCopy o)
  E.finish s m
    (fun g =>
      let g : Group := { g with newCopies := g.newCopies ++ [o.op] }
      let g := match E with | .grp I => g.touched I.k | .seq _ _ _ => g
      if flag then g.setPend d.toNat 1 else g)
    (fun q => { q with newCopies := q.newCopies ++ [o.op] })

/-- A new copy of an issuer. -/
def Eng.newCopy (E : Eng) (s : State) (store lane : Bool) (d : BitVec 7) : CopyOp :=
  { op := s.serial, src := E.src, core := E.core, ctx := E.ctx, wg := E.wg, wuid := (s.wgOf E.core E.wg).elim 0 Workgroup.uid, sup := E.sup, store := store, lane := lane, d := d,
    mask := E.rows, tile := none, base := 0, record := 0, loc := 0, origin := [], void := false,
    causes := [], bytes := 0, near := true, cells := [], word := 0, addrs := [], accepted := s.clkOf E.core,
    need := [], eng := E.core }

/-- R55: the base page of a tile fill: its cause, and the attribute it gives the tile. -/
def State.fillAttr (s : State) (core ctx base : Nat) : Option Nat × Option Nat :=
  let r := s.coreRes core ctx base reading
  let kinds := r.kinds ++ if r.kinds = [] ∧ leafBit r.leaf 8 then [1] else []
  match memCause kinds 3 with
  | some c => (some c, none)
  | none => (if formatOk r.leaf then none else some 0x53, some (attrOf r.leaf))

/-- R33, R55: the tile after the acceptance of a fill, with the cause that the attribute of the base page gives. -/
def State.fillTile (s : State) (core ctx base : Nat) (t : Tile) : Tile × List Nat :=
  let r := s.fillAttr core ctx base
  let t' : Tile := { t with state := .filling, fills := t.fills + 1 }
  if t.state = .empty then
    match r.2 with
    | some a => ({ t' with fmt := BitVec.ofNat 4 a, geom := BitVec.ofNat 3 (a / 16) }, r.1.toList)
    | none => (t', r.1.toList)
  else
    (t', r.1.toList ++ match r.2 with
      | some a => if a = t.attr then [] else [0x53]
      | none => [])

/-- R241 to R243, R286: the operands of a BCOPY, read at issue, and its acceptance: the engine reads its record and its source in the same step. DESIGN
CHOICE (log 81): where an atomic of its group that has not executed stands between it and a byte, or where it reads a local store other than through a
tile and an ACC2T of its group is queued (R225), its acceptance waits. -/
def Eng.bcopy (E : Eng) (s : State) (m store : Bool) (tile : Option Nat) (c : Nat) (a : BitVec 6) (d : BitVec 7) : State :=
  if !s.copyRoom E.core store E.who then E.hold s (.copyQueue store) m
  else
    let base := (E.rd64 (a6 a)).toNat
    let o : CopyOp := { E.newCopy s store false d with
      tile := tile
      base := base
      record := (E.rd64 c).toNat
      loc := if tile.isSome then (E.rd (c + 3)).toNat else (E.rd64 (c + 2)).toNat
      origin := (fromN (c + 4) 4).map fun r => (E.rd r).toInt }
    let go (t : State) (o : CopyOp) : State := match t.openCopy o with
      | some (o, t) => E.issueCopy t m true d o
      | none => E.hold s (.copyQueue store) m
    let s : State := { s with serial := s.serial + 1 }
    match tile with
    | none => go s o
    | some e =>
      let k := s.core E.core
      let t := k.tile e
      if store then go (s.setCore E.core (k.setTile e { t with state := .draining, reads := t.reads ++ [o.op] })) o
      else
        let s := s.loadTlbs E.core E.ctx base 1
        let r := s.fillTile E.core E.ctx base t
        let void := decide (t.state ≠ .empty) && r.2.contains 0x53
        go (s.setCore E.core ((s.core E.core).setTile e r.1)) { o with causes := r.2, void := void }

/-- R242: whether c+2 can be read and has a bit above [5:0] set. -/
def Eng.badTileNumber (E : Eng) (c : Nat) : Bool :=
  decide (64 ≤ (E.rd (c + 2)).toNat)
    && (match E with | .grp I => !Opd.pending I.gr (c + 2, 1) && !Opd.beyond I.gr (c + 2, 1) | .seq _ _ _ => true)

/-- R241, R242: BCOPY. A tile number with a bit above [5:0] set is an operand that takes 0x02, as an odd pair does. -/
def bcopy (store m : Bool) (t : BitVec 1) (c : BitVec 7) (a : BitVec 6) (d : BitVec 7) (s : State) : Outcome State Fault Refusal :=
  let tl := decide (t = 1)
  let bad (E : Eng) : Bool := tl && decide (c.toNat % 8 = 0) && E.badTileNumber c.toNat
  engineMem m (fun E => if bad E then [(1, 2)] else [(c.toNat, 8), opd d, addrOpd a]) s fun E =>
    if !tl then E.bcopy s m store none c.toNat a d
    else match E.tile s (E.rd (c.toNat + 2)).toNat with
      | none => E.trap s 0x04
      | some e =>
        let x := (s.core E.core).tile e
        if !x.valid then E.trap s 0x88
        else if store then if x.state = .ready then E.bcopy s m store (some e) c.toNat a d else E.hold s (.tile e) m
        else if x.state = .empty ∨ x.state = .filling then E.bcopy s m store (some e) c.toNat a d else E.hold s (.fill e) m

/-- R241: BCOPY.g2l. -/
def execBcopyG2l (m : Bool) (t : BitVec 1) (c : BitVec 7) (a : BitVec 6) (d : BitVec 7) (s : State) : Outcome State Fault Refusal :=
  bcopy false m t c a d s

/-- R241: BCOPY.l2g. -/
def execBcopyL2g (m : Bool) (t : BitVec 1) (c : BitVec 7) (a : BitVec 6) (d : BitVec 7) (s : State) : Outcome State Fault Refusal :=
  bcopy true m t c a d s

/-! ### The copy's writes -/

/-- R183, R268: an earlier copy of the same issuer has still to write a byte. -/
def State.copiesBefore (s : State) (o : CopyOp) (x : CopyEnd) : Bool :=
  s.cores.any fun p => (p.2.loadQ ++ p.2.storeQ).any fun y => decide (y.src = o.src ∧ y.op < o.op) && y.cells.any fun z => decide (z.dst = x)

/-- R183, R268: an earlier access of the issuer to a byte that the copy writes is not performed yet. -/
def State.writesHeld (s : State) (o : CopyOp) : Bool :=
  o.cells.any fun x => s.copiesBefore o x.dst || (match x.dst with
    | .loc c a => s.ownBank o (some c) a
    | .mem a => s.ownBank o none a
    | .window w a => s.ownBank o (some (1000 + w)) a
    | .zero => false)

/-- R201, R245: cells whose window has no room for them. -/
def State.fullWindows (s : State) (o : CopyOp) : List Nat :=
  let ws := (o.cells.filterMap fun x => match x.dst with | .window w _ => some w | _ => none).eraseDups
  ws.filter fun w =>
    let have_ := (SMap.get ({} : Window) s.windows w).sectors
    let new := ((o.cells.filterMap fun x => match x.dst with
      | .window v a => if v = w then some (a / 64) else none
      | _ => none).eraseDups).filter fun x => !(((SMap.get ({} : Window) s.windows w).staged.map fun p => p.1 / 64).contains x)
    decide (65536 < have_.length + new.length)

/-- R439: the windows of cells that are not enabled for the copy's context any more. -/
def State.closedWindows (s : State) (o : CopyOp) : List Nat :=
  ((o.cells.filterMap fun x => match x.dst with | .window w _ => some w | _ => none).eraseDups).filter fun w =>
    let y := SMap.get ({} : Window) s.windows w
    !y.en || decide (y.ctx ≠ o.ctx)

/-- R201, R439: a copy that is about to write: windows that are closed refuse its bytes with 0x4C, full ones with 0xA6. -/
def State.windowChecks (s : State) (o : CopyOp) : CopyOp :=
  let cut (o : CopyOp) (ws : List Nat) (cause : Nat) : CopyOp :=
    if ws.isEmpty then o else { o with
      causes := o.causes ++ [cause]
      cells := o.cells.filter fun x => match x.dst with | .window w _ => !ws.contains w | _ => true }
  let o := cut o (s.closedWindows o) 0x4C
  cut o (s.fullWindows o) 0xA6

/-- R244, R287: writes the bytes of cells; memory bytes enter the pending-write order of the engine's die, and their lines leave the L1s of the engine's
core and of its issuer's. -/
def State.writeCells (s : State) (o : CopyOp) (l : List CopyCell) : State :=
  let s := s.copyLs o l
  let mem := copyMem l
  let s := if mem.isEmpty then s
    else
      let secs := (runs (mem.map fun p => sectorOf p.1)).eraseDups
      let s := (s.fetchSecs o.eng o.ctx true o.pageAt secs).enterPending o.eng o.ctx o.op o.op false o.pageAt mem
      [o.eng, o.core].foldl (fun s c => s.setCore c ((s.core c).l1Drop o.ctx (mem.map Prod.fst))) s
  l.foldl (fun s x => match x.dst with | .window w a => s.stage w [(a, x.val)] | _ => s) s

/-! ### Completion (R237, R238, R246, R391) -/

/-- R391: changes a tile entry of a workgroup wherever it is. -/
def State.modTile (s : State) (c ctx w e : Nat) (f : Tile → Tile) : State :=
  if s.holds c ctx w then s.setCore c ((s.core c).setTile e (f ((s.core c).tile e)))
  else s.modImage c ctx w fun im => { im with tiles := im.tiles.put e (f (im.tiles.get {} e)) }

/-- R33: a fill has completed. -/
def Tile.filled (t : Tile) : Tile :=
  if t.fills = 0 then t else { t with fills := t.fills - 1, state := if t.fills = 1 ∧ t.state = .filling then .ready else t.state }

/-- R33: a copy's use of its tile ends. -/
def State.copyTile (s : State) (o : CopyOp) : State :=
  match o.tile with
  | none => s
  | some e => s.modTile o.core o.ctx o.wg e fun t =>
      if o.store then ({ t with reads := t.reads.filter fun x => decide (x ≠ o.op) } : Tile).drained else t.filled

/-- R253, R254: a sequencer after a status: its register is written, and a cause stops it. -/
def Sequencer.status (q : Sequencer) (d : BitVec 7) (x : Word) : Sequencer :=
  let q := if x.setWidth 8 ≠ (0 : BitVec 8) ∧ (q.run = .running ∨ q.run = .ending) then q.stopWith (x.setWidth 8) else q
  q.wr d.toNat x

/-- R236, R238, R391: a status arrives for a group: at the group, held while its core is halted, in its image, or dropped. -/
def State.giveStatus (s : State) (c ctx uid : Nat) (d : BitVec 7) (mask : Mask) (x : Word) : State :=
  let write (s : State) : State := s.modUid uid fun g => (g.wrLive d.toNat 1 mask fun _ => [x]).clearPend d.toNat 1
  match s.findUid uid with
  | some (n, _) =>
    let k := s.core n
    if k.halted then s.setCore n { k with redirect := k.redirect ++ [.status uid d mask x] } else write s
  | none => match s.getUid uid with
    | some _ => write s
    | none => s.dropCompletion c ctx

/-- R253, R391: a status arrives for a sequencer of the core, which runs for the workgroup of a slot: on the core, held while the core is halted, in the
image, or dropped. -/
def State.giveSeqStatus (s : State) (c ctx w : Nat) (cp : Bool) (d : BitVec 7) (x : Word) : State :=
  let k := s.core c
  if s.holds c ctx w then
    if k.halted then s.setCore c { k with redirect := k.redirect ++ [.seqStatus cp d x] }
    else s.setSeq c cp ((k.seqOf cp).status d x)
  else if s.images.any fun im => decide (im.ctx = ctx ∧ im.core = c) && (im.wgs.look w).isSome then
    s.modImage c ctx w fun im => im.modSeq cp fun q => q.status d x
  else s.dropCompletion c ctx

/-- A copy leaves its engine. -/
def State.endCopy (s : State) (o : CopyOp) : State := s.setCore o.eng ((s.core o.eng).dropCopy o.op (s.clkOf o.eng))

/-- R322: a copy that has read poisoned data ends, and its context stops on its core. -/
def State.poisonedCopy (s : State) (o : CopyOp) : State := (s.endCopy o).stopCtx o.core o.ctx 0xE3

/-- R246: BCOPY_COMPLETE: once everything that the copy reads has come it writes its bytes, and the status arrives. -/
def execBcopyComplete (op : Nat) (s : State) : Outcome State Fault Refusal :=
  .next <| match s.copyOf op with
    | none => s
    | some old =>
      if old.lane then s
      else
        let r := s.refetchCopy old
        let o := r.1
        let s := r.2
        if !s.copyRead o || s.writesHeld o then s
        else if o.poison then (s.copyTile o).poisonedCopy o
        else
          let o := s.windowChecks o
          let r := if o.causes.isEmpty then (o.cells, s) else s.someCells o
          let s := ((r.2.writeCells o r.1).copyTile o).endCopy o
          let x := o.status (s.clkOf o.eng)
          match o.src with
          | .grp uid => s.giveStatus o.core o.ctx uid o.d o.mask x
          | .seq _ cp => s.giveSeqStatus o.core o.ctx o.wg cp o.d x

/-! ### LCOPY (R247, R248) -/

/-- R248: a lane's source and destination. -/
def Eng.lcopyRefs (E : Eng) (s : State) (a : BitVec 6) (v : BitVec 7) : List (Nat × Ref) :=
  let one (L : Nat) : List (Nat × Ref) :=
    let src := (match E with | .grp I => I.gr.rd64 (a6 a) L | .seq _ _ q => q.rd64 (a6 a) + BitVec.ofNat 64 (16 * L)).toNat
    let dst := (match E with | .grp I => I.gr.rd64 v.toNat L | .seq _ _ q => q.rd64 v.toNat + BitVec.ofNat 64 (16 * L)).toNat
    let rs : Res := if src / 2 ^ 60 = 14 then { kinds := 4 :: alignKinds src 16 } else E.resolve s src 16 reading
    let rd : Res := if dst / 2 ^ 60 = 15 then s.resolveLocal E.core E.wg dst 16 else { kinds := 4 :: alignKinds dst 16 }
    [(0, ⟨L, src, rs⟩), (1, ⟨L, dst, rd⟩)]
  (lanes E.rows).flatMap one

/-- R20, R248: the lowest cause among accesses of several kinds, or the pages to wait for. -/
def gateOf2 (rs : List (Nat × Ref)) : Gate :=
  let pages := (rs.filterMap fun r => r.2.res.wait).eraseDups
  if pages ≠ [] then .walk pages
  else match leastBy id (rs.filterMap fun r => r.2.cause r.1) with
    | none => .go
    | some c =>
      let hit := rs.filter fun r => decide (r.2.cause r.1 = some c)
      .trap (BitVec.ofNat 8 c) (maskOf (hit.map fun r => r.2.lane)) (hit.map fun r => (r.2.lane, BitVec.ofNat 64 r.2.va))

/-- R247, R248: the lanes of an LCOPY: the lane, its source ends (none where its translation cannot be corrected) and its destination ends. -/
def lcopyLanes : List (Nat × Ref) → List (Nat × List CopyEnd × List CopyEnd)
  | (_, a) :: (_, b) :: t =>
    let at_ (sp : Space) (p : Nat) : CopyEnd := match sp with
      | .loc c => .loc c p
      | .window w => .window w p
      | _ => .mem p
    (a.lane, if a.res.kinds.contains 7 then [] else a.res.pas.map (at_ a.res.space), b.res.pas.map (at_ b.res.space)) :: lcopyLanes t
  | _ => []

/-- R247, R248, R286: the bytes of an LCOPY as its issue reads them: a lane with a word that cannot be corrected gives zeros, and is noted. -/
def State.openLcopy (s : State) (o : CopyOp) (l : List (Nat × List CopyEnd × List CopyEnd)) : CopyOp :=
  let bad (x : Nat × List CopyEnd × List CopyEnd) : Bool := x.2.1.isEmpty || x.2.1.any (s.endBad o)
  let srcs := l.flatMap fun x => x.2.1
  let own := s.ownEnds o srcs
  { o with
    causes := (l.filter bad).map fun x => x.1
    poison := srcs.any s.endPoison
    reads := endSecs srcs
    need := (endSecs srcs).filter fun x => !(s.tok (dieOf o.eng) x).canRead
    cells := l.flatMap fun x => x.2.2.zipIdx.map fun p =>
      ⟨p.1, if bad x then 0 else s.endByte o own (x.2.1.getD p.2 .zero), x.1⟩ }

/-- R247: LCOPY. Its acceptance waits as a BCOPY's does (log 81). -/
def execLcopy (m : Bool) (i : BitVec 7) (a : BitVec 6) (v : BitVec 7) (s : State) : Outcome State Fault Refusal :=
  engineMem m (fun _ => [pairOpd v, addrOpd a]) s fun E =>
    let rs := E.lcopyRefs s a v
    match gateOf2 rs with
    | .walk pages =>
      E.hold (pages.foldl (fun s p => if s.pageKnown E.core E.ctx p then s else s.startWalk (dieOf E.core) E.ctx p none) s)
        (.walk pages) m
    | .trap c k ad =>
      let s := s.dropFaults E.core E.ctx (rs.map Prod.snd)
      match E with
      | .grp I => I.trapLanes s c k ad
      | .seq n cp _ => s.seqStop n cp c
    | .go =>
      match s.barCheck E.core E.wg i.toNat true with
      | some c => E.trap s c
      | none =>
        let srcs := (rs.filter fun r => decide (r.1 = 0)).map Prod.snd
        let ends := (lcopyLanes rs).flatMap fun x => x.2.1
        let o : CopyOp := { E.newCopy s false true 0 with
          bytes := 16 * (lanes E.rows).length
          near := srcs.all fun r => match r.res.space with
            | .loc _ => true
            | _ => r.res.pas.all fun p => nearPa (dieOf E.core) p
          pages := srcs.foldl (fun m r => match r.res.page, r.res.pas with
            | some p, a :: _ => m.put (a / 65536) (p, r.res.attr)
            | _, _ => m) ([] : SMap (Nat × BitVec 24))
          word := s.barOff E.core E.wg i.toNat
          addrs := srcs.map fun r => (r.lane, BitVec.ofNat 64 r.va) }
        if !s.copyRoom E.core false E.who || s.endsHeld o ends then E.hold s (.copyQueue false) m
        else
          let s : State := { s with serial := s.serial + 1 }
          let s := (s.dropFaults E.core E.ctx (rs.map Prod.snd)).useTlbs E.core E.ctx (rs.map Prod.snd)
          let s := (s.roundSectors (endSecs ends)).fetchSecs E.core E.ctx false o.pageAt (endSecs ends)
          E.issueCopy s m false 0 (s.openLcopy o (lcopyLanes rs))

/-- R248: the lanes of an LCOPY whose source could not be corrected, with their addresses. -/
def CopyOp.badLanes (o : CopyOp) : SMap Dword := o.addrs.filter fun p => o.causes.contains p.1

/-- R247: every lane's bytes of an LCOPY are written, and the engine makes one arrival. R391: where its workgroup is gone the arrival is dropped. -/
def State.finishLcopy (s : State) (o : CopyOp) : State :=
  let uid := match o.src with
    | .grp uid => uid
    | .seq _ cp => (((s.core o.core).seqOf cp).owner).getD o.op
  let s := (s.endCopy o).writeCells o o.cells
  if s.wgLives o.wuid then s.arrive o.core ⟨o.word, 1, 0, 0, uid, o.ctx, match o.src with | .grp _ => o.op | .seq _ _ => 0⟩
  else s.dropCompletion o.core o.ctx

/-- R247, R248: LCOPY_COMPLETE: every lane's bytes are written, an uncorrectable source is deferred, and the engine makes one arrival. -/
def execLcopyComplete (op : Nat) (s : State) : Outcome State Fault Refusal :=
  .next <| match s.copyOf op with
    | none => s
    | some old =>
      if !old.lane then s
      else
        let r := s.refetchCopy old
        let o := r.1
        let s := r.2
        if !s.copyRead o || s.writesHeld o then s
        else if o.poison then s.poisonedCopy o
        else if o.causes.isEmpty then s.finishLcopy o
        else match o.src with
          | .seq _ cp =>
            let s := s.finishLcopy o
            if s.holds o.core o.ctx o.wg then s.seqStop o.core cp 0x78
            else s.modImage o.core o.ctx o.wg fun im => im.modSeq cp fun q => q.stopWith 0x78
          | .grp uid => match s.deferFor uid o.core o.ctx o.sup 0x78 o.badLanes with
            | none => s
            | some s => s.finishLcopy o

/-! ### Batches (R249, R250) -/

/-- R249: whether a copy still runs. -/
def State.copyRuns (s : State) (op : Nat) : Bool := (s.copyOf op).isSome

/-- R249: the batches of an issuer. -/
def Batch.none_ : Batch := ⟨false, []⟩
def batchOf (b : SMap Batch) (n : Nat) : Batch := b.get Batch.none_ n
def State.batchDone (s : State) (b : SMap Batch) (n : Nat) : Bool := (batchOf b n).ops.all fun op => !s.copyRuns op

def Group.sealBatch (g : Group) (n : Nat) : Group :=
  { g with batches := g.batches.put n ⟨true, (batchOf g.batches n).ops ++ g.newCopies⟩, newCopies := [] }
def Sequencer.sealBatch (q : Sequencer) (n : Nat) : Sequencer :=
  { q with batches := q.batches.put n ⟨true, (batchOf q.batches n).ops ++ q.newCopies⟩, newCopies := [] }

/-- R249: a batch that has been waited for: it is empty and unsealed, and its copies count among the waited ones. -/
def Group.waitBatch (g : Group) (n : Nat) : Group :=
  { g with batches := g.batches.erase n, waited := g.waited ++ (batchOf g.batches n).ops }
def Sequencer.waitBatch (q : Sequencer) (n : Nat) : Sequencer :=
  { q with batches := q.batches.erase n, waited := q.waited ++ (batchOf q.batches n).ops }

/-- R249: CSEAL. -/
def execCseal (m : Bool) (n : BitVec 3) (s : State) : Outcome State Fault Refusal :=
  engine m [] s fun E => E.finish s m (fun g => g.sealBatch n.toNat) (fun q => q.sealBatch n.toNat)

/-- R249: CWAIT. -/
def execCwait (m : Bool) (n : BitVec 3) (s : State) : Outcome State Fault Refusal :=
  engine m [] s fun E =>
    let b := match E with | .grp I => I.gr.batches | .seq _ _ q => q.batches
    if (batchOf b n.toNat).isSealed = false then E.trap s 0xAC
    else if s.batchDone b n.toNat then E.finish s m (fun g => g.waitBatch n.toNat) (fun q => q.waitBatch n.toNat)
    else E.hold s (.cwait n.toNat) m

/-- R249: the batches that splits of a group wait for and that are complete. -/
def State.waitsOver (s : State) (g : Group) : List Nat :=
  (List.range 8).filter fun n => s.batchDone g.batches n && (g.slots.any fun p => decide (p.2.wait = .cwait n))

/-- R249: CWAIT_COMPLETE, of a group slot (below 48), the matrix sequencer (48) or the copy sequencer (49) of a core. -/
def execCwaitComplete (core unit : Nat) (s : State) : Outcome State Fault Refusal :=
  .next <|
    let k := s.core core
    if k.halted then s
    else if unit < 48 then
      match s.grp core unit with
      | none => s
      | some g => s.setGrp core unit ((s.waitsOver g).foldl (fun g n =>
          (g.waitBatch n).wake fun x => decide (x.wait = .cwait n)) g)
    else
      let cp := decide (unit = 49)
      let q := k.seqOf cp
      match q.wait with
      | .cwait n => if q.run = .running ∧ s.batchDone q.batches n then s.setSeq core cp (q.waitBatch n).next else s
      | _ => s

end Sys2Proof.Machine
end

