-- ==== Sys2Proof/Machine/Engine.lean ====
section
/-! DEFINITION. Engine programs (R251 to R255): FORK, RDV, ENDSEQ and the ends of sequencers. -/

namespace Sys2Proof.Machine

open Host (Outcome)

/-- R252: FORK. -/
def execFork (m : Bool) (b a : BitVec 7) (s : State) : Outcome State Fault Refusal :=
  onSplit s fun I =>
    match I.gr.check false [opd a, opd b] with
    | some c => I.trap s c
    | none =>
      let L := lowest I.sp.mask
      let fm := I.gr.rd a.toNat L
      let fc := I.gr.rd b.toNat L
      let k := s.core I.c
      if (fm ≠ 0 ∧ k.mseq.run ≠ .idle) ∨ (fc ≠ 0 ∧ k.cseq.run ≠ .idle) then I.trap s 0xAB
      else
        let start (off : Word) (q : Sequencer) : Sequencer :=
          if off = 0 then q
          else { q with
            run := .running
            pc := addPc I.sp.pc off.toInt
            sregs := (List.range 16).foldl (fun t r => SMap.set 0 t r (I.gr.sget r)) ([] : SMap Word)
            owner := some I.gr.uid
            sup := I.gr.sup
            ctx := I.gr.ctx
            wg := I.gr.wg
            cause := 0
            batches := []
            newCopies := []
            waited := []
            wait := .none }
        I.done (s.setCore I.c { k with mseq := start fm k.mseq, cseq := start fc k.cseq }) I.gr 2 m

/-- R254: an operation that a sequencer issued has not completed. -/
def State.seqBusy (s : State) (c : Nat) (cp : Bool) : Bool :=
  let k := s.core c
  s.cores.any (fun p => (p.2.loadQ ++ p.2.storeQ).any fun o => decide (o.src = .seq c cp))
    || k.mqueue.any (fun o => decide (o.src = .seq c cp))
    || decide ((k.seqOf cp).wait ≠ .none)

/-- R255: a sequencer for which a RDV no longer waits. -/
def State.seqOver (s : State) (c : Nat) (cp : Bool) (uid : Nat) : Bool :=
  let q := (s.core c).seqOf cp
  if q.owner ≠ some uid then true
  else match q.run with
    | .ended | .reported => true
    | .stopped => !s.seqBusy c cp
    | _ => false

/-- R254: ENDSEQ. -/
def execEndseq (m : Bool) (s : State) : Outcome State Fault Refusal :=
  onBoth s (fun I => I.trap s 0x09) fun c cp => seqRun s c cp m [] fun q => s.setSeq c cp { q with run := .ending }

/-- R254, R255: SEQUENCER_END of the matrix (0) or copy (1) sequencer: past ENDSEQ with its operations complete it is ENDED; one without
an owner returns to IDLE. DESIGN CHOICE (log 116): so does a REPORTED one whose owner has exited, of which R255 does not speak. -/
def execSequencerEnd (core seq : Nat) (s : State) : Outcome State Fault Refusal :=
  .next <|
    let cp := decide (seq = 1)
    let q := (s.core core).seqOf cp
    if (s.core core).halted || s.seqBusy core cp then s
    else
      let q := if q.run = .ending then { q with run := .ended } else q
      s.setSeq core cp (if q.owner = none ∧ (q.run = .ended ∨ q.run = .stopped ∨ q.run = .reported) then {} else q)

/-- R255: what RDV reports. -/
def Core.rdvWord (k : Core) (uid : Nat) : Word :=
  let own (q : Sequencer) : Bool := decide (q.owner = some uid)
  let cause (q : Sequencer) : Nat := if own q then q.cause.toNat else 0
  BitVec.ofNat 32 (cause k.mseq + cause k.cseq * 2 ^ 8 + (own k.mseq).toNat * 2 ^ 16 + (own k.cseq).toNat * 2 ^ 17)

/-- R255: RDV once every sequencer of its group is over: a trap for each that stopped, then the report. -/
def Iss.rdv (I : Iss) (s : State) (d : BitVec 7) (m : Bool) : State :=
  let uid := I.gr.uid
  let k := s.core I.c
  if k.mseq.owner = some uid ∧ k.mseq.run = .stopped then
    I.trap (s.setCore I.c { k with mseq := { k.mseq with run := .reported } }) 0xA7
  else if k.cseq.owner = some uid ∧ k.cseq.run = .stopped then
    I.trap (s.setCore I.c { k with cseq := { k.cseq with run := .reported } }) 0xA8
  else
    let free (q : Sequencer) : Sequencer := if q.owner = some uid then { q with run := .idle, owner := none } else q
    I.done (s.setCore I.c { k with mseq := free k.mseq, cseq := free k.cseq }) (I.gr.wr d.toNat I.sp.mask fun _ => k.rdvWord uid) 2 m

/-- R255: RDV. The group parks, the RDV unexecuted, until its sequencers are over. -/
def execRdv (m : Bool) (d : BitVec 7) (s : State) : Outcome State Fault Refusal :=
  onSplit s fun I =>
    match I.gr.check false [opd d] with
    | some c => I.trap s c
    | none =>
      if s.seqOver I.c false I.gr.uid && s.seqOver I.c true I.gr.uid then I.rdv s d m
      else s.setGrp I.c I.g { I.gr.tick (some I.k) with park := .rdv I.k d m }

/-- R255: RDV_COMPLETE: the parked RDV of a group whose sequencers are over reports, or traps. -/
def execRdvComplete (core grp : Nat) (s : State) : Outcome State Fault Refusal :=
  .next <| match s.grp core grp with
    | none => s
    | some g => match g.park with
      | .rdv k d m =>
        if s.seqOver core false g.uid && s.seqOver core true g.uid && !(s.core core).halted then
          let s := s.setGrp core grp { g with park := .run }
          match s.iss core grp k with
          | some I => I.rdv s d m
          | none => s
        else s
      | _ => s

end Sys2Proof.Machine
end

