-- ==== Sys2Proof/Machine/Link.lean ====
section
/-! DEFINITION. The link layer of the peer ports (R440 to R444): headers, what a port sends and keeps, and what it accepts. -/

namespace Sys2Proof.Machine

def State.port (s : State) (p : Nat) : Port := SMap.get ({} : Port) s.ports p
def State.setPort (s : State) (p : Nat) (x : Port) : State := { s with ports := s.ports.put p x }

/-! ### Headers (R441) -/

/-- R441: a header's 128 bits. -/
def Header.word (h : Header) : Nat :=
  h.seq % 2 ^ 12 + h.ack % 2 ^ 12 * 2 ^ 12 + h.ackv.toNat * 2 ^ 24 + h.kidx % 2 * 2 ^ 25 + h.typ % 2 ^ 4 * 2 ^ 26 + h.vc % 2 ^ 2 * 2 ^ 30
    + h.ctr % 2 ^ 48 * 2 ^ 32 + h.dpkg % 2 ^ 16 * 2 ^ 80

/-- R441: the header in a word. -/
def headerOf (w : Nat) : Header :=
  { seq := w % 2 ^ 12, ack := w / 2 ^ 12 % 2 ^ 12, ackv := decide (w / 2 ^ 24 % 2 = 1), kidx := w / 2 ^ 25 % 2, typ := w / 2 ^ 26 % 2 ^ 4,
    vc := w / 2 ^ 30 % 2 ^ 2, ctr := w / 2 ^ 32 % 2 ^ 48, dpkg := w / 2 ^ 80 % 2 ^ 16 }

/-! ### Sending (R442, R443) -/

/-- A text filled up to a length, or cut to it. -/
def padTo (n : Nat) (l : List Byte) : List Byte := (l ++ List.replicate (n - l.length) 0).take n

/-- R442: the header of the next flit that a port sends. -/
def Port.header (x : Port) (u : Unsent) : Header :=
  { seq := x.nextSeq, ack := (x.expected + 4095) % 4096, ackv := x.got, kidx := x.kidx, typ := u.typ, vc := u.vc, ctr := x.ctr, dpkg := u.dpkg }

/-- R440, R443: a flit as sent: its payload encrypted under the key in use, its header authenticated with it. A key-exchange flit is not encrypted;
DESIGN CHOICE (log 121): its tag, which the spec does not give, is a free value. -/
def Port.seal (x : Port) (u : Unsent) : Flit :=
  let h := x.header u
  let text := padTo 224 u.text
  let k := SMap.get (⟨[], []⟩ : LinkKey) x.txKeys x.kidx
  let sealed := Config.gcmSeal (if u.typ = 4 then [] else k.key) (k.salt ++ toBytes 6 x.ctr) (toBytes 16 h.word) text
  { head := h, payload := if u.typ = 4 then text else padTo 224 sealed.1, tag := padTo 16 sealed.2 }

/-- R442, R443: a flit goes: it takes the next sequence number and is kept as sent. An encrypted one counts under its key. -/
def Port.emit (x : Port) (u : Unsent) : Port :=
  let f := x.seal u
  { x with
    buffer := x.buffer ++ [f]
    out := x.out ++ [f]
    nextSeq := (x.nextSeq + 1) % 4096
    ctr := if u.typ = 4 then x.ctr else x.ctr + 1 }

/-- R442, R443: whether a flit may go now: there is room to keep it, and before the first key only key exchanges go. -/
def Port.mayEmit (x : Port) (u : Unsent) : Bool := x.up && decide (x.buffer.length < 256) && (x.enc || decide (u.typ = 4))

/-- R442: the flits that wait go as far as they may, in order. -/
def Port.drain (x : Port) : Port :=
  x.waiting.foldl (fun x u => if x.mayEmit u then x.emit u else { x with waiting := x.waiting ++ [u] }) { x with waiting := [] }

/-- R442: a flit that is not idle goes, or waits. -/
def Port.send (x : Port) (typ vc dpkg : Nat) (text : List Byte) : Port :=
  ({ x with waiting := x.waiting ++ [⟨typ, vc, dpkg, text⟩] } : Port).drain

/-- R442, R444: a flit of the link layer's own. DESIGN CHOICE (log 63): it goes on the management channel. -/
def State.linkFlit (s : State) (p typ : Nat) (text : List Byte) : State :=
  s.setPort p ((s.port p).send typ 2 (Config.packageOf p 0) text)

/-! ### Keys (R443, R444) -/

/-- R443: this side's next flit of a key exchange. -/
def State.exchangeFlit (s : State) (p : Nat) : State :=
  let x := s.port p
  let g := s.regs
  let sig := Config.falconSign g.otpSeed (Config.shake256 64 x.transcript) s.free
  let text := padTo 224 (Config.exchangeFrame x.transcript g.identCert sig s.free)
  State.linkFlit ({ s with free := s.free + 1 }.setPort p { x with transcript := x.transcript ++ text }) p 4 text

/-- R443, R444: a rollover starts, or is noted while one runs. -/
def State.rollPort (s : State) (p : Nat) : State :=
  let x := s.port p
  if !x.enc then s
  else if x.roll then s.setPort p { x with rollAgain := true }
  else if x.keyRun ≠ .idle then s.setPort p { x with roll := true, rollAgain := true }
  else (s.setPort p { x with roll := true, keyRun := .own, transcript := [] }).exchangeFlit p

/-- R444 step 3: once nothing sent under the old key is kept, the key-retire flit goes, which names the old index, and the old key is gone. A
rollover that was asked for meanwhile starts. -/
def State.retireKey (s : State) (p : Nat) : State :=
  let x := s.port p
  match x.lastOld with
  | none => if x.roll && x.rollAgain && decide (x.keyRun = .idle) then (s.setPort p { x with roll := false, rollAgain := false }).rollPort p else s
  | some old =>
    if x.buffer.any fun f => decide (f.head.kidx = old ∧ f.head.typ ≠ 4) then s
    else
      let s := State.linkFlit (s.setPort p { x with txKeys := x.txKeys.erase old, lastOld := none, roll := false, rollAgain := false }) p 3 (toBytes 1 old)
      if x.rollAgain then s.rollPort p else s

/-- R443: a key and a salt of one direction, from the shared secret. DESIGN CHOICE (log 121): the spec does not say how the bytes of SHAKE256 are
shared out; here each direction has its own last byte of the message. -/
def linkKeyOf (secret : List Byte) (down : Bool) : LinkKey :=
  let b := Config.shake256 38 (secret ++ [if down then 1 else 0])
  ⟨b.take 32, b.drop 32⟩

/-- R443, R444 steps 1 and 2: the keys that an exchange has established are installed: both directions' first, or one at the free index. -/
def Port.install (x : Port) (secret : List Byte) : Port :=
  let free := if (x.rxKeys.look 0).isSome then 1 else 0
  let x' : Port := { x with keyRun := .idle, transcript := [] }
  match x.keyRun with
  | .idle => x
  | .first =>
    { x' with
      txKeys := [(0, linkKeyOf secret false)], rxKeys := [(0, linkKeyOf secret true)], kidx := 0, ctr := 0, enc := true }
  | .own =>
    { x' with txKeys := x.txKeys.put (1 - x.kidx) (linkKeyOf secret false), lastOld := some x.kidx, kidx := 1 - x.kidx, ctr := 0 }
  | .peer => { x' with rxKeys := x.rxKeys.put free (linkKeyOf secret true) }

/-- R443: what a key-exchange flit does: the exchange goes on, or ends with keys where the peer's signature verifies under its certificate. DESIGN
CHOICE (log 121): where it does not, no key is installed and the exchange is over. -/
def State.exchangeStep (s : State) (p : Nat) (text : List Byte) : State :=
  let x := s.port p
  let x : Port := { x with keyRun := if x.keyRun ≠ .idle then x.keyRun else if x.enc then .peer else .first }
  let t := x.transcript ++ text
  match Config.exchangeOf t with
  | none => (s.setPort p { x with transcript := t }).exchangeFlit p
  | some (cert, sig, secret) =>
    let x := if Config.falconVerify cert (Config.shake256 64 x.transcript) sig then x.install secret
      else { x with keyRun := .idle, transcript := [], roll := x.roll && decide (x.keyRun ≠ .own) }
    (s.setPort p x.drain).retireKey p

/-! ### Receiving (R442) -/

/-- R442: whether a sequence number is at or before another, within the 256 flits of a buffer. -/
def covered (ack seq : Nat) : Bool := decide ((ack + 4096 - seq) % 4096 < 2048)

/-- R442: an ack releases the flits that it covers, and what waits for room goes. -/
def State.ackPort (s : State) (p : Nat) (h : Header) : State :=
  let x := s.port p
  if !h.ackv then s else (s.setPort p ({ x with buffer := x.buffer.filter fun f => !covered h.ack f.head.seq } : Port).drain).retireKey p

/-- R442: whether a port accepts a flit: the next in order, of a type and a channel that exist, corrected and verified under a key that it holds, or
a key exchange, which has none. -/
def Port.accepts (x : Port) (h : Header) (ok : Bool) : Bool :=
  ok && decide (h.seq = x.expected ∧ h.typ ≤ 4 ∧ h.vc ≠ 3) && (decide (h.typ = 4) || (x.rxKeys.look h.kidx).isSome)

/-- R442: a flit that is not accepted draws a NAK, which names the last good one, once for each expected number; R443: not before the first key. -/
def State.refuseFlit (s : State) (p : Nat) : State :=
  let x := s.port p
  if x.naked || !x.enc then s else State.linkFlit (s.setPort p { x with naked := true }) p 2 []

/-- R442: the arrival of a flit: an idle one takes no number, another the next; its ack counts, and what it says. -/
def State.flitArrives (s : State) (p : Nat) (h : Header) (ok : Bool) (act : State → State) : State :=
  let x := s.port p
  if !x.up then s
  else
    let s := s.setPort p { x with heard := s.now }
    if !x.accepts h ok then s.refuseFlit p
    else if h.typ = 0 then s.ackPort p h
    else
      let x : Port := { s.port p with expected := (x.expected + 1) % 4096, got := true, naked := false, received := x.received ++ [h] }
      act ((s.setPort p x).ackPort p h)

end Sys2Proof.Machine
end

