-- ==== Sys2Proof/Machine/Collective.lean ====
section
/-! DEFINITION. Collectives (R256 to R261, R396 to R409): COLL, the acceptance of members, matching and start, the exact reduction of R59
to R62, completion, failed links, and handshakes of spanning packages. -/

namespace Sys2Proof.Machine

open Host (Outcome)

/-! ### Reading a descriptor or record -/

/-- R246, R284: whether a device-scope read of a byte through a die must wait: an earlier write of some groups to its line is not performed or
still pending there, or another write of the die to its sector is pending. -/
def State.linePending (s : State) (d : Nat) (uids : List Nat) (upto a : Nat) : Bool :=
  (s.ops.any fun p => uids.contains p.2.uid && decide (p.2.op < upto) && p.2.kind.writes
      && p.2.lanes.any fun l => l.val.isNone && decide (l.space.bank = none) && l.pas.any fun x => decide (x / 256 = a / 256))
    || (s.die d).pw.any fun w => decide (w.sector = sectorOf a) || (decide (w.sector / 4 = a / 256) && uids.any fun u => w.holds u upto)

/-- The same of a run of bytes. -/
def State.readPending (s : State) (d : Nat) (uids : List Nat) (upto : Nat) (pas : List Nat) : Bool :=
  (runs (pas.map sectorOf)).any fun x => s.linePending d uids upto (64 * x)

/-- R65: an engine's device-scope read of a run of bytes rounds the shadows of its sectors. -/
def State.roundRange (s : State) (ctx va n : Nat) : State :=
  if s.shadows.isEmpty then s else s.roundSectors (runs ((s.rangePas ctx va n reading).map sectorOf))

/-- What a read of a descriptor gives: a wait, a kind, poison, or the bytes with their places. -/
inductive DescRead where
  | wait
  | bad (kind : Nat)
  | poison
  | ok (pas : List Nat) (bytes : List Byte)
deriving Repr

/-- R259, R263: a copy-read of `n` bytes aligned on 64 B. -/
def State.readDesc (s : State) (d ctx : Nat) (uids : List Nat) (upto va n : Nat) : DescRead :=
  let pub := if va / 2 ^ 52 ≠ 0 then [] else
    (pagesOf va n).flatMap fun a => let r := s.engineRes ctx a reading; if r.kinds = [] ∧ leafBit r.leaf 8 then [1] else []
  match leastBy id (s.rangeKinds ctx va n reading ++ alignKinds va 64 ++ pub) with
  | some k => .bad k
  | none =>
    let pas := s.rangePas ctx va n reading
    if s.readPending d uids upto pas then .wait
    else if s.anyPoison pas then .poison
    else if s.anyBad pas then .bad 7
    else .ok pas (pas.map s.merged)

/-- A little-endian field of bytes. -/
def field (b : List Byte) (at_ n : Nat) : Nat := ofBytes ((b.drop at_).take n)

/-- R399: an open communicator of a context. -/
def State.commOf (s : State) (ctx n : Nat) : Option Comm := (s.ctx ctx).comms.look n

/-- R401: takes a member's sequence number: its word in the sequence array is read and incremented; or the kind that it meets. DESIGN CHOICE
(log 93): R259 names no cause for a word that no longer translates; the member takes the memory cause of its descriptor's access, 6 or 7. DESIGN
CHOICE (log 117): two workgroups that name one rank take the numbers that their word gives them, one after the other; the 0xA1 that R401 speaks of comes
only where one collective gets both joins (R402). -/
def State.takeSeq (s : State) (ctx : Nat) (cm : Comm) (rank : Nat) : Sum Nat (Nat × State) :=
  let va := cm.seqva.toNat + 4 * (rank - cm.lo)
  let want : Want := ⟨true, true, true, false⟩
  let r := s.engineRes ctx va want
  match leastBy id (r.kinds ++ if r.kinds = [] ∧ s.anyBad [r.pa] = true then [7] else []) with
  | some k => .inl k
  | none =>
    let s := (s.touchRange ctx va 4 want).roundSectors [sectorOf r.pa]
    let n := s.rdM r.pa 4
    .inr (n, s.hwWriteN r.pa 4 ((n + 1) % 2 ^ 32))

/-! ### COLL (R257, R258) -/

/-- R257: COLL. -/
def execColl (m : Bool) (i : BitVec 4) (t : BitVec 6) (a : BitVec 6) (d : BitVec 7) (s : State) : Outcome State Fault Refusal :=
  onSplit s fun I =>
    if I.sp.acq ≠ [] then s.setGrp I.c I.g (I.gr.hold I.k .acquire m)
    else match I.gr.check false [opd d, addrOpd a] with
      | some c => I.trap s c
      | none =>
        match (Eng.grp I).useTile s t.toNat, s.barCheck I.c I.gr.wg i.toNat true with
        | .trap c, some c' => I.trap s (if c.toNat < c'.toNat then c else c')
        | .trap c, none => I.trap s c
        | .wait e, _ => s.setGrp I.c I.g (I.gr.hold I.k (.tile e) m)
        | .ready _, some c => I.trap s c
        | .ready e, none =>
          match s.wgOf I.c I.gr.wg with
          | none => I.trap s 0x04
          | some w =>
            let n := I.gr.collNext
            let x : CollIssue := ⟨I.gr.uid, d, I.sp.mask, I.gr.rd64 (a6 a) (lowest I.sp.mask), e, w.barAt i.toNat, s.serial⟩
            let s := s.setWg I.c I.gr.wg { w with colls := w.colls.put n (w.colls.get [] n ++ [x]) }
            I.done { s with serial := s.serial + 1 } ({ (I.gr.setPend d.toNat 1).touched I.k with collNext := n + 1 }) 2 m

/-! ### Descriptors (R256, R259) -/

/-- R256: formats of a contribution and of the result. -/
def collFmts (kind ifmt rfmt : Nat) : Bool :=
  (if ifmt = 0 then decide (rfmt = 0) else decide (6 ≤ ifmt ∧ ifmt ≤ 10 ∧ 6 ≤ rfmt ∧ rfmt ≤ 10))
    && (decide (kind < 2) || decide (rfmt = ifmt))

/-- R256: whether a descriptor keeps its limits; those that name N only where the communicator is known. -/
def collDescOk (b : List Byte) (n : Option Nat) : Bool :=
  let kind := field b 2 1
  let root := field b 3 1
  let count := field b 8 4
  decide (kind ≤ 3) && (decide (kind = 3) || decide (root = 0)) && collFmts kind (field b 4 1) (field b 5 1)
    && decide (field b 6 2 = 0 ∧ field b 0x0C 4 = 0 ∧ field b 0x12 46 = 0) && decide (count ≠ 0 ∧ count % 32 = 0)
    && (match n with
        | none => true
        | some n => decide (field b 0x10 2 < n) && (decide (kind ≠ 3) || decide (root < n))
            && (decide (kind ≠ 1) || decide (count % (32 * n) = 0)))

/-- Bytes of a contribution, and of a result. -/
def collIn (b : List Byte) : Nat := field b 8 4 * (fmtBits (field b 4 1) / 8)
def collOut (b : List Byte) (n : Nat) : Nat :=
  let c := field b 8 4
  (match field b 2 1 with | 1 => c / n | 2 => n * c | _ => c) * (fmtBits (field b 5 1) / 8)

/-- R259: the cause of a descriptor, its communicator and its tile. DESIGN CHOICE (log 92): with a communicator that is not open the checks of 0xA2
that need N are not made, nor those of the tile, and a descriptor that keeps its other limits takes 0xA3. -/
def collCause (b : List Byte) (cm : Option Comm) (t : Tile) : Option Nat :=
  match cm with
  | none => some (if collDescOk b none then 0xA3 else 0xA2)
  | some c =>
    if !collDescOk b (some c.n) || decide (t.geom ≠ 0 ∨ 256 * t.size.toNat < collIn b ∨ 256 * t.size.toNat < collOut b c.n) then some 0xA2
    else if c.kind ≠ 0 then some 0xA3
    else if field b 0x10 2 < c.lo ∨ c.hi ≤ field b 0x10 2 then some 0xA2
    else none

/-- R258: the issues of one n name one descriptor, one tile and one barrier word. -/
def sameIssues (l : List CollIssue) : Bool :=
  match l with
  | [] => true
  | x :: t => t.all fun y => decide (y.desc = x.desc ∧ y.tile = x.tile ∧ y.word = x.word)

/-- R258, R259: COLL_MEMBER_ACCEPT: every group of the workgroup has issued its n-th COLL, and what each did before is performed. -/
def execCollMemberAccept (core wg : Nat) (s : State) : Outcome State Fault Refusal :=
  .next <| match s.wgOf core wg with
    | none => s
    | some w =>
      let k := s.core core
      let n := w.collDone
      let issues := w.colls.get [] n
      let gs := k.groupsOf wg
      let due := !k.halted && !issues.isEmpty && gs.all (fun p => decide (n < p.2.collNext))
        && issues.all fun x => s.valuesHeld x.uid x.upto && s.writesPerformed x.uid core w.ctx .workgroup x.upto
      match if due then issues.head? else none with
      | none => s
      | some x =>
        let s := s.setWg core wg { w with colls := w.colls.erase n, collDone := n + 1 }
        let y : Member := { mem := s.serial, core := core, ctx := w.ctx, exchange := false, issues := issues, desc := x.desc,
                            tileOff := some (k.tileAt x.tile), clk := s.clkOf core, die := dieOf core }
        let fail (c : Nat) (s : State) : State :=
          { s with serial := s.serial + 1, members := s.members.put y.mem { y with stage := .ready, cause := c } }
        let s := s.roundRange w.ctx x.desc.toNat 64
        if !sameIssues issues then fail 0xA2 s
        else match s.readDesc (dieOf core) w.ctx (issues.map fun i => i.uid) s.serial x.desc.toNat 64 with
          | .wait => s.setWg core wg w
          | .bad kind => fail (0x46 + 8 * kind) s
          | .poison => s.stopCtx core w.ctx 0xE3
          | .ok pas b =>
            let s := s.touchRange w.ctx x.desc.toNat 64 reading
            let comm := field b 0 2
            match collCause b (s.commOf w.ctx comm) (k.tile x.tile), s.commOf w.ctx comm with
            | some c, _ => fail c s
            | none, none => fail 0xA3 s
            | none, some cm =>
              let rank := field b 0x10 2
              match s.takeSeq w.ctx cm rank with
              | .inl kind => fail (0x46 + 8 * kind) s
              | .inr (seq, s) =>
                { s with
                  serial := s.serial + 1
                  members := s.members.put y.mem { y with
                    pa := pas.headD 0, record := b, comm := comm, rank := rank, seq := seq, n := cm.n, stage := .checked } }

/-! ### The plane (R396, R397, R404, R408) -/

/-- R402, R408: the hub that serves a communicator. -/
def State.hubOf (s : State) (comm : Nat) : Nat := if s.deadHubs.contains (comm % 2) then 1 - comm % 2 else comm % 2

/-- R408: whether a base die still serves commands. -/
def State.baseAlive (s : State) (b : Nat) : Bool :=
  !s.deadAdders.contains b && ([0, 1].any fun h => !s.deadLanes.contains (b, h) && !s.deadHubs.contains h)

/-- R404, R408: the base die of an endpoint that serves block `b`. -/
def State.baseOf (s : State) (g b : Nat) : Option Nat := ((List.range 3).map fun i => 3 * g + (b + i) % 3).find? s.baseAlive

/-- R397: occupied entries of a base die's command queue. -/
def State.occupied (s : State) (b : Nat) : Nat :=
  (s.matches_.filter fun x => x.dies.contains b).length + (s.members.filter fun p => p.2.entries.contains b).length

/-- R377, R397: a die's collective occupancy. -/
def State.occupancy (s : State) (d : Nat) : Nat := s.occupied (3 * d) + s.occupied (3 * d + 1) + s.occupied (3 * d + 2)

/-- The members joined to an entry. -/
def State.joined (s : State) (x : Match) : List Member := x.joins.filterMap fun p => s.members.look p.2

/-- R404: the base dies that a collective uses; none where an endpoint has none left. -/
def State.collDies (s : State) (x : Match) : Option (List Nat) :=
  let ms := s.joined x
  let gs := (ms.map fun y => y.die).eraseDups
  let blocks := ((ms.head?.map fun y => field y.record 8 4 / 32)).getD 0
  let all := gs.flatMap fun g => (List.range (min 3 blocks)).map fun b => s.baseOf g b
  if all.any Option.isNone then none else some (all.filterMap id).eraseDups

/-- Members of an entry complete with a cause. -/
def State.failJoined (s : State) (x : Match) (cause : Nat) : State :=
  { s with members := s.members.mapVals fun id y =>
      if x.joins.any fun p => p.2 = id then { y with stage := .ready, cause := cause } else y }

/-! ### Matching and start (R402, R403) -/

def Match.hasKey (x : Match) (ctx comm seq : Nat) : Bool := decide (x.ctx = ctx ∧ x.comm = comm ∧ x.seq = seq)
def Match.keyed (x : Match) (y : Member) : Bool := x.hasKey y.ctx y.comm y.seq

/-- Replaces an entry. -/
def State.setMatch (s : State) (x y : Match) : State := { s with matches_ := s.matches_.map fun z => if z = x then y else z }

/-- R259: a post set of the same key: a COLL and a DPOST that meet both fail. -/
def State.meetsPost (s : State) (y : Member) : Bool :=
  s.postSets.any fun p => decide (p.2.ctx = y.ctx ∧ p.2.comm = y.comm ∧ p.2.seq = y.seq)

/-- R409: a flit that carries out a spanning collective, to the packages of a route. -/
def State.spanFlit (s : State) (x : Match) (what vc block : Nat) (r : Nat × Nat × Nat) (body : List Int) : State :=
  s.setPort r.2.2 ((s.port r.2.2).send 1 vc (Config.packageOf r.2.2 r.1) (Config.spanFrame what x.ctx x.comm x.seq block body))

/-- R399, R409: the routes of an entry's communicator to other packages. -/
def State.routesFrom (s : State) (x : Match) : List (Nat × Nat × Nat) :=
  match s.commOf x.ctx x.comm with
  | some c => if c.span then c.routes else []
  | none => []

/-- R409: once its local entry is complete, a package tells the others by a start handshake, on the control channel. -/
def State.handshake (s : State) (x : Match) : State := (s.routesFrom x).foldl (fun s r => s.spanFlit x 0 1 0 r []) s

/-- R402: an entry after a join: failed by another digest or a rank joined twice, completed by the last join; a failed entry is
released after N joins. -/
def State.enterJoin (s : State) (x : Match) (y : Member) (old : Option Match) : State :=
  let bad := x.failed || decide (x.digest ≠ y.record.take 16) || x.joins.any (fun p => decide (p.1 = y.rank)) || s.meetsPost y
  let joins := x.joins ++ [(y.rank, y.mem)]
  let full := decide (joins.length = x.need)
  let x' : Match := { x with joins := joins, failed := bad, order := if bad then none else if full then some s.serial else x.order }
  let s : State := { s with serial := s.serial + 1, members := s.members.put y.mem { y with stage := .joined } }
  let s := if bad then s.failJoined x' 0xA1 else if full then s.handshake x' else s
  let s : State := match old with
    | some z => s.setMatch z x'
    | none => { s with matches_ := s.matches_ ++ [x'] }
  if bad ∧ y.n ≤ joins.length then { s with matches_ := s.matches_.filter fun z => decide (z ≠ x') } else s

/-- R402: COLL_JOIN. A join that finds no free entry waits. -/
def execCollJoin (mem : Nat) (s : State) : Outcome State Fault Refusal :=
  .next <| match s.members.look mem with
    | none => s
    | some y =>
      if y.exchange = true ∨ y.stage ≠ .checked then s
      else match s.matches_.find? fun x => x.keyed y && !x.started with
        | some x => s.enterJoin x y (some x)
        | none =>
          let hub := s.hubOf y.comm
          if 1024 ≤ (s.matches_.filter fun x => x.hub = hub).length then s
          else
            let need := match s.commOf y.ctx y.comm with | some c => c.hi - c.lo | none => y.n
            s.enterJoin ⟨hub, y.ctx, y.comm, y.seq, y.record.take 16, [], need, false, none, false, []⟩ y none

/-- R409, R443: whether every other package has sent its start handshake, over ports that have keys. -/
def State.spanReady (s : State) (x : Match) : Bool :=
  match s.commOf x.ctx x.comm with
  | some c => !c.span || ((c.routes.all fun r => (SMap.get ({} : Port) s.ports r.2.2).enc)
      && (c.routes.map fun r => r.1).all fun first => s.spanSeen.contains (x.ctx * 65536 + x.comm, x.seq, first))
  | none => true

/-- R446: whether a spanning collective's route table names a lost port. -/
def State.routesLost (s : State) (x : Match) : Bool :=
  match s.commOf x.ctx x.comm with
  | some c => c.span && c.routes.any fun r => (SMap.get ({} : Port) s.ports r.2.2).lost
  | none => false

/-- R403: the complete entry of a hub that comes first in the order of completion. -/
def State.nextMatch (s : State) (hub : Nat) : Option Match :=
  leastBy (fun x : Match => x.order.getD 0)
    (s.matches_.filter fun x => decide (x.hub = hub ∧ x.started = false) && x.order.isSome && (s.spanReady x || s.routesLost x))

/-- R403, R408, R446: COLL_START: the first complete entry of a hub takes its command entries in one step, or ends in 0xAD. -/
def execCollStart (hub : Nat) (s : State) : Outcome State Fault Refusal :=
  .next <| match s.nextMatch hub with
    | none => s
    | some x => match if s.routesLost x then none else s.collDies x with
      | none => { s.failJoined x 0xAD with matches_ := s.matches_.filter fun z => decide (z ≠ x) }
      | some dies =>
        if dies.all fun b => decide (s.occupied b < 16) then s.setMatch x { x with started := true, dies := dies } else s

/-- The entry that a member has joined. -/
def State.matchOf (s : State) (mem : Nat) : Option Match := s.matches_.find? fun x => x.joins.any fun p => decide (p.2 = mem)

/-- R407: the last whole clk within the bound of a member, from its start notice. -/
def State.collBound (s : State) (x : Match) (y : Member) : Nat :=
  let size := max (collIn y.record) (collOut y.record y.n)
  let held (g : Nat) : Nat := ((s.joined x).filter fun z => z.die = g).length
  let most := ((List.range 8).map held).foldl max 0
  let hops := match s.commOf x.ctx x.comm with | some c => if c.span then 2 else 0 | none => 0
  (256 * 7800 + most * size + hops * (256 * 2600 + 4 * size)) / 256

/-- R403: START_NOTICE: a member's reduction begins, and its bound. -/
def execStartNotice (mem : Nat) (s : State) : Outcome State Fault Refusal :=
  .next <| match s.members.look mem, s.matchOf mem with
    | some y, some x =>
      if x.started = true ∧ y.stage = .joined then
        { s with members := s.members.put mem { y with stage := .started, clk := (s.die y.die).clk, bound := s.collBound x y } }
      else s
    | _, _ => s

/-! ### The reduction (R59 to R62, R405) -/

/-- R59: exp(x) of a finite element that is not zero. -/
def expOf (F : Fmt) : FV → Option Int
  | .fin _ m e => if m = 0 then none else some (max ((m.log2 : Int) + e) (1 - (F.bias : Int)))
  | _ => none

/-- R59: E of a block. -/
def blockExp (F : Fmt) (xs : List FV) : Option Int :=
  xs.foldl (fun r x => match r, expOf F x with
    | none, y => y
    | some a, some b => some (max a b)
    | some a, none => some a) none

/-- R60: the leaf integer. -/
def leafInt (E : Int) : FV → Int
  | .fin neg m e =>
    let k := e + 30 - E
    let q : Nat := if 0 ≤ k then m * 2 ^ k.toNat else rneShift m (-k).toNat
    if neg then -(q : Int) else q
  | _ => 0

/-- R61, R62: the root's element from a column of contributions. -/
def rootElem (G : Fmt) (E : Option Int) (col : List FV) : Nat :=
  let pos := col.contains (.inf false)
  let neg := col.contains (.inf true)
  if col.contains .nan || (pos && neg) then G.rne false .nan
  else if pos then G.rne false (.inf false)
  else if neg then G.rne false (.inf true)
  else match E with
    | none => 0
    | some E =>
      let S := (col.map (leafInt E)).foldl (· + ·) 0
      G.rne false (.fin (decide (S < 0)) S.natAbs (E - 30))

/-- The elements of a contribution. -/
def elemsOf (F : Fmt) (b : List Byte) : List FV :=
  let w := F.bits / 8
  (List.range (b.length / w)).map fun i => F.decode (ofBytes ((b.drop (w * i)).take w))

/-- R405: the sum of floating-point contributions, block by block. -/
def sumFloat (F G : Fmt) (c : Nat) (xs : List (List FV)) : List Byte :=
  (List.range (c / 32)).flatMap fun b =>
    let blk (x : List FV) : List FV := (x.drop (32 * b)).take 32
    let E := blockExp F (xs.flatMap blk)
    (List.range 32).flatMap fun i => toBytes (G.bits / 8) (rootElem G E (xs.map fun x => x.getD (32 * b + i) (.fin false 0 0)))

/-- R62: the sum of i32 contributions, and whether an element clamped. -/
def sumInt (c : Nat) (xs : List (List Byte)) : List Byte × Bool :=
  let one (e : Nat) : Int × Bool :=
    clampInt (-(2 : Int) ^ 31) ((2 : Int) ^ 31 - 1)
      ((xs.map fun x => intValue 32 true (field x (4 * e) 4)).foldl (· + ·) 0)
  ((List.range c).flatMap fun e => toBytes 4 (placeInt 32 true (one e).1), (List.range c).any fun e => (one e).2)

/-- R260, R405: the sum over members' contributions. -/
def collSum (b : List Byte) (xs : List (List Byte)) : List Byte × Bool :=
  let c := field b 8 4
  match floatFmt (field b 4 1), floatFmt (field b 5 1) with
  | some F, some G => (sumFloat F G c (xs.map (elemsOf F)), false)
  | _, _ => sumInt c xs

/-- R260: rank r's result from the contributions by rank. -/
def collResult (b : List Byte) (n r : Nat) (xs : List (List Byte)) : List Byte × Bool :=
  match field b 2 1 with
  | 0 => collSum b xs
  | 1 =>
    let s := collSum b xs
    ((s.1.drop (r * collOut b n)).take (collOut b n), s.2)
  | 2 => (xs.flatMap id, false)
  | _ => (xs.getD (field b 3 1) [], false)

/-- The contribution of a member, from its tile. -/
def State.contribution (s : State) (y : Member) : List Byte :=
  match y.tileOff with
  | some off => (fromN off (collIn y.record)).map fun a => s.lsGet y.core y.ctx a
  | none => (List.range (collIn y.record)).map fun _ => 0

/-- R339, R406: whether a member's contribution holds a word of the local store that cannot be corrected. -/
def State.badContribution (s : State) (y : Member) : Bool :=
  match y.tileOff with
  | some off => s.locBad y.core y.ctx (fromN off (collIn y.record))
  | none => false

/-- R61, R405: what a package's part of a block comes to: each element's sum of leaves, and its classes (1 NaN, 2 +∞, 4 −∞). -/
def partialOf (b : List Byte) (blk : Nat) (all mine : List (List Byte)) : Option Int × List Int :=
  match floatFmt (field b 4 1) with
  | some F =>
    let cut (x : List Byte) : List FV := ((elemsOf F x).drop (32 * blk)).take 32
    let E := blockExp F (all.flatMap cut)
    (blockExp F (mine.flatMap cut), (List.range 32).flatMap fun i =>
      let col := mine.map fun x => (cut x).getD i (.fin false 0 0)
      [(col.map (leafInt (E.getD 0))).foldl (· + ·) 0,
        (col.contains .nan).toNat + 2 * (col.contains (.inf false)).toNat + 4 * (col.contains (.inf true)).toNat])
  | none => (none, (List.range 32).flatMap fun i =>
      [(mine.map fun x => intValue 32 true (field x (4 * (32 * blk + i)) 4)).foldl (· + ·) 0, 0])

/-- R440: the payloads that bytes take. -/
def payloads (b : List Byte) : List (List Int) :=
  (List.range (ceilDiv b.length 224)).map fun i => ((b.drop (224 * i)).take 224).map fun x => (x.toNat : Int)

/-- R405, R409: what this package sends of a collective: for the sums of kinds 0 and 1 the exponents and the partial sums of its blocks to the root
package, or from it the exponents of all and the results; for kinds 2 and 3 the contributions that the others need. DESIGN CHOICE (log 120): one flit
for a block and a pass; the layouts are not the spec's. -/
def State.spanSend (s : State) (x : Match) (y : Member) (all mine : List (List Byte)) : State :=
  let b := y.record
  let kind := field b 2 1
  let routes := s.routesFrom x
  let root := x.joins.any fun p => p.1 = 0
  let bytes (l : List Byte) (s : State) (r : Nat × Nat × Nat) : State :=
    ((payloads l).zipIdx).foldl (fun s p => s.spanFlit x 3 0 p.2 r p.1) s
  let expo (e : Option Int) : List Int := match e with | some e => [e] | none => []
  if kind ≤ 1 then
    let blocks := List.range (field b 8 4 / 32)
    let s := blocks.foldl (fun s k => routes.foldl (fun s r =>
      if root then s.spanFlit x 1 0 k r (expo (partialOf b k all all).1)
      else if r.1 = 0 then (s.spanFlit x 1 0 k r (expo (partialOf b k all mine).1)).spanFlit x 2 0 k r (partialOf b k all mine).2
      else s) s) s
    if root then
      routes.foldl (fun s r => bytes (if kind = 0 then (collSum b all).1
        else ((collSum b all).1.drop (r.1 * collOut b y.n)).take ((r.2.1 - r.1) * collOut b y.n)) s r) s
    else s
  else if kind = 2 then mine.foldl (fun s c => routes.foldl (bytes c) s) s
  else if x.joins.any fun p => p.1 = field b 3 1 then routes.foldl (bytes (all.getD (field b 3 1) [])) s
  else s

/-- R405, R409: the results of an entry whose members have all started. What ranks of other packages contribute, this module cannot
say: every byte of their contributions is a free value, and enters the exact sum, the classes and the root's rounding as a local one does. DESIGN CHOICE
(log 123): with an uncorrectable word in a contribution every member takes 0x7E, and no tile is written. -/
def State.finishMatch (s : State) (x : Match) : State :=
  let ms := s.joined x
  match ms with
  | [] => s
  | y :: _ =>
    if ms.any s.badContribution then s.failJoined x 0x7E else
    let b := y.record
    let far (i : Nat) : Byte := Config.remoteByte (s.free + i)
    let local_ := decide (ms.length = y.n)
    let size := collIn b
    let xs := (List.range y.n).map fun r => match ms.find? fun z => z.rank = r with
      | some z => s.contribution z
      | none => (List.range size).map fun i => far (size * r + i)
    let s : State := if local_ then s else State.spanSend { s with free := s.free + size * y.n } x y xs (ms.map s.contribution)
    { s with members := s.members.mapVals fun id z =>
        if x.joins.any fun p => p.2 = id then
          let r := collResult b y.n z.rank xs
          { z with stage := .ready, result := r.1, sat := r.2 }
        else z }

/-! ### Completion (R237, R261) -/

/-- R237: the status of a member. -/
def Member.status (y : Member) (now bytes : Nat) (bit9 : Bool) : Word :=
  let late := decide (y.bound ≠ 0 ∧ y.clk + y.bound < now)
  BitVec.ofNat 32 (y.cause + late.toNat * 2 ^ 8 + (if y.cause = 0 then bit9.toNat * 2 ^ 9 + bytes * 2 ^ 10 else 0))

/-- R261, R265: the status and the arrival of every issue; the member is gone. -/
def State.endMember (s : State) (y : Member) (x : Word) : State :=
  let s := State.setCore { s with members := s.members.erase y.mem } y.core { s.core y.core with progress := s.clkOf y.core }
  y.issues.foldl (fun s i =>
    (s.giveStatus y.core y.ctx i.uid i.d i.mask x).arrive y.core ⟨i.word, 1, 0, 0, i.uid, y.ctx, 0⟩) s

/-- R402: a member leaves its entry, which goes with its last member. -/
def State.leaveMatch (s : State) (mem : Nat) : State :=
  match s.matchOf mem with
  | none => s
  | some x =>
    let x' : Match := { x with joins := x.joins.filter fun p => decide (p.2 ≠ mem) }
    if x.order.isNone then s
    else if x'.joins.isEmpty then { s with matches_ := s.matches_.filter fun z => decide (z ≠ x) }
    else s.setMatch x x'

/-- R261: COLL_MEMBER_COMPLETE. -/
def execCollMemberComplete (mem : Nat) (s : State) : Outcome State Fault Refusal :=
  let s : State := match s.members.look mem, s.matchOf mem with
    | some y, some x =>
      if y.stage = .started ∧ (s.joined x).all (fun z => decide (z.stage = .started)) = true then s.finishMatch x else s
    | _, _ => s
  .next <| match s.members.look mem with
    | none => s
    | some y =>
      if y.exchange = true ∨ y.stage ≠ .ready then s
      else
        let s := match y.tileOff with
          | some off => if y.cause = 0 then s.lsPut y.core y.ctx ((fromN off y.result.length).zip y.result) else s
          | none => s
        (s.leaveMatch mem).endMember y (y.status (s.die y.die).clk (ceilDiv y.result.length 1024) y.sat)

/-! ### Failed links and spanning packages (R408, R409) -/

/-- R408, R459: the error record of a link event. -/
def State.linkEvent (s : State) (die port lanes_ : Nat) : State :=
  s.postError ⟨0, 2, die, 0, 0, false, s.now, port + lanes_ * 2 ^ 8⟩

/-- R408: the base dies that carry on for those of a list that serve no longer. -/
def State.movedOn (s : State) (l : List Nat) : List Nat := (l.filterMap fun b => s.baseOf (b / 3) (b % 3)).eraseDups

/-- R408: commands in flight pass on to the base dies that remain. -/
def State.passOn (s : State) : State :=
  { s with
    matches_ := s.matches_.map fun x => { x with dies := s.movedOn x.dies }
    members := s.members.mapVals fun _ y => { y with entries := s.movedOn y.entries } }

/-- R408: whether a collective or an exchange of a member is in flight through its endpoint: a collective that has started, an exchange once posted. -/
def Member.inFlight (y : Member) : Bool := decide (y.stage = .started ∨ y.stage = .running) || (y.exchange && decide (y.stage = .joined))

/-- R408: an endpoint with no base die left: its contexts with an operation in flight stop with 0xE6. -/
def State.endpointLost (s : State) (g : Nat) : State :=
  if (fromN (3 * g) 3).any s.baseAlive then s
  else
    let hit := s.members.vals.filter fun y => decide (y.die = g) && y.inFlight
    State.stopEach ((hit.map fun y => (y.core, y.ctx)).eraseDups) 0xE6 s

/-- R408: whether a Cartographer's message is still to be delivered once a hub is lost: what an endpoint or the other hub is to receive goes another way. -/
def XMsg.outlives (x : XMsg) (h : Nat) : Bool :=
  decide (x.hub ≠ h) || match x.kind with
    | .calendar | .go => true
    | .ack | .issueNote | .goNote => false

/-- R408: the loss of a hub: the entries it holds fail with 0xAD; what it has sent still arrives, calendars with the posts that they rest on. -/
def State.hubLost (s : State) (h : Nat) : State :=
  let gone := s.matches_.filter fun x => decide (x.hub = h)
  let s := gone.foldl (fun s x => s.failJoined x 0xAD) s
  let left := s.xmsgs.filter fun x => x.outlives h
  { s with
    matches_ := s.matches_.filter fun x => decide (x.hub ≠ h)
    postSets := s.postSets.filter fun p =>
      decide (p.2.hub ≠ h) || left.any fun x => decide (x.kind = .calendar ∧ x.hub = h ∧ x.set_ = p.2.set_)
    postQ := s.postQ.filter fun q => decide (q.hub ≠ h)
    xmsgs := left }

/-- R408: COLL_LINK_FAIL: kind 0, a base die's lane to a hub; 1, a base die's adder; 2, a hub. -/
def execCollLinkFail (kind index lane_ : Nat) (s : State) : Outcome State Fault Refusal :=
  .next <| match kind with
    | 0 =>
      let s : State := { s with deadLanes := if s.deadLanes.contains (index, lane_) then s.deadLanes else s.deadLanes ++ [(index, lane_)] }
      ((s.linkEvent (index / 3) index (2 ^ lane_)).passOn).endpointLost (index / 3)
    | 1 =>
      let s : State := { s with deadAdders := if s.deadAdders.contains index then s.deadAdders else s.deadAdders ++ [index] }
      ((s.linkEvent (index / 3) index 0).passOn).endpointLost (index / 3)
    | 2 =>
      let s : State := { s with deadHubs := if s.deadHubs.contains index then s.deadHubs else s.deadHubs ++ [index] }
      (List.range 8).foldl (fun s g => s.endpointLost g) (((s.linkEvent index index 0).hubLost index).passOn)
    | _ => s

/-- R409: SPAN_HANDSHAKE: a package, named by the first rank of its route, has completed its entry for a sequence of a communicator,
given as context * 65536 + number. -/
def execSpanHandshake (comm seq pkg : Nat) (s : State) : Outcome State Fault Refusal :=
  .next (if s.spanSeen.contains (comm, seq, pkg) then s else { s with spanSeen := s.spanSeen ++ [(comm, seq, pkg)] })

end Sys2Proof.Machine
end

