-- ==== Sys2Proof/Machine/Exchange.lean ====
section
/-! DEFINITION. Irregular exchanges (R262 to R265, R410 to R415): DPOST, the post sets and the calendar of the Cartographers, issue,
acknowledgement and go, the phases, and failover between the two Cartographers. -/

namespace Sys2Proof.Machine

open Host (Outcome)

/-! ### DPOST (R262, R263) -/

/-- R263: DPOST. -/
def execDpost (m : Bool) (i : BitVec 4) (a : BitVec 6) (d : BitVec 7) (s : State) : Outcome State Fault Refusal :=
  onSplit s fun I =>
    if I.sp.acq ≠ [] then s.setGrp I.c I.g (I.gr.hold I.k .acquire m)
    else match I.gr.check false [opd d, addrOpd a] with
      | some c => I.trap s c
      | none => match s.barCheck I.c I.gr.wg i.toNat true with
        | some c => I.trap s c
        | none =>
          let va := I.gr.rd64 (a6 a) (lowest I.sp.mask)
          let x : CollIssue := ⟨I.gr.uid, d, I.sp.mask, va, 0, s.barOff I.c I.gr.wg i.toNat, s.serial⟩
          let y : Member := { mem := s.serial, core := I.c, ctx := I.gr.ctx, exchange := true, issues := [x], desc := va,
                              clk := s.clkOf I.c, die := dieOf I.c }
          I.done { s with serial := s.serial + 1, members := s.members.put y.mem y } ((I.gr.setPend d.toNat 1).touched I.k) 2 m

/-- R262: the fields of an exchange record. -/
def xRank (b : List Byte) : Nat := field b 2 1
def xCap (b : List Byte) : Nat := field b 4 4
def xSendBuf (b : List Byte) : Nat := field b 8 8
def xRecvBuf (b : List Byte) : Nat := field b 0x10 8
def xPost (b : List Byte) (j : Nat) : Nat := field b (0x20 + 4 * j) 4
def xHave (b : List Byte) (j : Nat) : Nat := field b (0x40 + 4 * j) 4
def xSoff (b : List Byte) (j : Nat) : Nat := field b (0x60 + 4 * j) 4

/-- R263: a record that breaks R262. -/
def exchangeBad (b : List Byte) (n : Nat) : Bool :=
  decide (n ≤ xRank b ∨ xCap b % 4096 ≠ 0 ∨ xSendBuf b % 4096 ≠ 0 ∨ xRecvBuf b % 4096 ≠ 0)
    || decide (field b 3 1 ≠ 0 ∨ field b 0x18 8 ≠ 0 ∨ field b 0xE0 32 ≠ 0)
    || (List.range 8).any fun j => decide (xSoff b j % 4096 ≠ 0) || (decide (n ≤ j) && decide (xPost b j ≠ 0 ∨ xHave b j ≠ 0))

/-- R263, R400: a range inside a registered one. -/
def within (base len a n : Nat) : Bool := decide (base ≤ a ∧ a + n ≤ base + 65536 * len)

/-- R263: ranges inside the buffers registered for the communicator. -/
def exchangeInside (b : List Byte) (c : Comm) : Bool :=
  ((List.range c.n).all fun j => within c.sbase.toNat c.slen (xSendBuf b + xSoff b j) (xHave b j))
    && within c.rbase.toNat c.rlen (xRecvBuf b) (xCap b)

/-- R263: the cause of a record. -/
def exchangeCause (b : List Byte) (cm : Option Comm) : Option Nat :=
  match cm with
  | none => some 0xA3
  | some c =>
    if c.kind ≠ 1 then some 0xA3
    else if exchangeBad b c.n then some 0xA4
    else if !exchangeInside b c then some 0xA5
    else none

/-- R263, R410: a member posts to both Cartographers. -/
def State.postBoth (s : State) (y : Member) : State :=
  let post (hub : Nat) : PostMsg :=
    ⟨hub, y.mem, y.ctx, y.comm, y.seq, y.n, y.rank, (List.range y.n).map fun j => xPost y.record j, xCap y.record⟩
  { s with postQ := s.postQ ++ (([0, 1].filter fun h => !s.deadHubs.contains h).map post) }

/-- R263: DPOST_RECORD_READ. -/
def execDpostRecordRead (mem : Nat) (s : State) : Outcome State Fault Refusal :=
  .next <| match s.members.look mem with
    | none => s
    | some y =>
      let set (y : Member) (s : State) : State := { s with members := s.members.put mem y }
      let fail (c : Nat) (s : State) : State := set { y with stage := .ready, cause := c } s
      if y.exchange = false ∨ y.stage ≠ .accepted then s
      else
        let s := s.roundRange y.ctx y.desc.toNat 256
        match s.readDesc y.die y.ctx (y.issues.map fun i => i.uid) mem y.desc.toNat 256 with
        | .wait => s
        | .bad kind => fail (0x47 + 8 * kind) s
        | .poison => (set { y with stage := .ready } s).stopCtx y.core y.ctx 0xE3
        | .ok pas b =>
          let s := s.touchRange y.ctx y.desc.toNat 256 reading
          let comm := field b 0 2
          match exchangeCause b (s.commOf y.ctx comm), s.commOf y.ctx comm with
          | some c, _ => fail c s
          | none, none => fail 0xA3 s
          | none, some cm => match s.takeSeq y.ctx cm (xRank b) with
            | .inl kind => fail (0x47 + 8 * kind) s
            | .inr (seq, s) =>
              let y : Member :=
                { y with pa := pas.headD 0, record := b, comm := comm, rank := xRank b, seq := seq, n := cm.n, stage := .checked }
              set y (s.postBoth y)

/-! ### Post sets and the calendar (R410, R411) -/

/-- Where a post set stands in the table. -/
def PostSet.key (p : PostSet) : Nat := p.set_ * 2 + p.hub
def State.setPost (s : State) (p : PostSet) : State := { s with postSets := s.postSets.put p.key p }
def State.postSet (s : State) (hub set : Nat) : Option PostSet := s.postSets.look (set * 2 + hub)
def PostSet.keyed (p : PostSet) (q : PostMsg) : Bool := decide (p.ctx = q.ctx ∧ p.comm = q.comm ∧ p.seq = q.seq)

/-- R410: the posts by rank. -/
def PostSet.row (p : PostSet) (i : Nat) : List Nat := ((p.posts.find? fun x => x.rank = i).map fun x => x.row).getD []
def PostSet.cap (p : PostSet) (i : Nat) : Nat := ((p.posts.find? fun x => x.rank = i).map fun x => x.recvcap).getD 0
/-- R411: D. -/
def PostSet.demand (p : PostSet) : List (List Nat) :=
  (List.range p.n).map fun i => (List.range p.n).map fun j => ceilDiv ((p.row i).getD j 0) 4096

abbrev Matrix2 := List (List Nat)
def at2 (m : Matrix2) (i j : Nat) : Nat := (m.getD i []).getD j 0
def add2 (m : Matrix2) (i j x : Nat) : Matrix2 := m.mapIdx fun a r => if a = i then r.mapIdx fun b y => if b = j then y + x else y else r
def sub2 (m : Matrix2) (i j x : Nat) : Matrix2 := m.mapIdx fun a r => if a = i then r.mapIdx fun b y => if b = j then y - x else y else r
def rowSum (m : Matrix2) (i : Nat) : Nat := (m.getD i []).foldl (· + ·) 0
def colSum (m : Matrix2) (j : Nat) : Nat := (m.map fun r => r.getD j 0).foldl (· + ·) 0

/-- R411: L. -/
def lineMax (n : Nat) (m : Matrix2) : Nat := (List.range n).foldl (fun a i => max a (max (rowSum m i) (colSum m i))) 0

/-- R411: the padding, in row-major order. -/
def padMatrix (n L : Nat) (m : Matrix2) : Matrix2 :=
  (List.range n).foldl (fun m i => (List.range n).foldl (fun m j => add2 m i j (min (L - rowSum m i) (L - colSum m j))) m) m

/-- R411: the lexicographically smallest permutation of nonzero entries. -/
def firstPerm (n : Nat) (m : Matrix2) : Nat → Nat → List Nat → Option (List Nat)
  | 0, _, _ => some []
  | k + 1, i, used =>
    (List.range n).findSome? fun j =>
      if at2 m i j = 0 ∨ used.contains j = true then none else (firstPerm n m k (i + 1) (j :: used)).map fun t => j :: t

/-- R411: the phases from slot `t` on. -/
def phasesFrom (n : Nat) : Nat → Nat → Matrix2 → List Phase
  | 0, _, _ => []
  | fuel + 1, t, m => match firstPerm n m n 0 [] with
    | none => []
    | some sg =>
      let dur := ((List.range n).map fun i => at2 m i (sg.getD i 0)).foldl min (at2 m 0 (sg.getD 0 0))
      ⟨t, dur, sg⟩ :: phasesFrom n fuel (t + dur) ((List.range n).foldl (fun m i => sub2 m i (sg.getD i 0) dur) m)

/-- R411: the calendar. -/
def PostSet.total (p : PostSet) : Nat := lineMax p.n p.demand
def PostSet.calendar (p : PostSet) : List Phase := phasesFrom p.n (p.n * p.n + 1) 0 (padMatrix p.n p.total p.demand)

/-- R264, R411: whether a member's granted slots exceed its receive capacity. -/
def PostSet.overflows (p : PostSet) : Bool := (List.range p.n).any fun j => decide (p.cap j < 4096 * colSum p.demand j)

/-! ### Posting (R410) -/

/-- Messages from a Cartographer. -/
def State.xsend (s : State) (k : XKind) (hub set mem : Nat) : State :=
  { s with xmsgs := s.xmsgs ++ [⟨s.serial, k, hub, set, mem⟩], serial := s.serial + 1 }

/-- R410: a set after a post: failed by a rank that posts twice or a COLL of its key, complete with a post of every rank, and failed then where a
member's capacity is too small (R264). -/
def PostSet.enter (p : PostSet) (q : PostMsg) (meets : Bool) (now : Nat) : PostSet :=
  let twice := p.posts.any fun x => x.rank = q.rank
  let p : PostSet := { p with
    posts := p.posts ++ [⟨q.rank, q.mem, q.row, q.recvcap⟩]
    failed := if p.failed ≠ 0 then p.failed else if twice || meets then 0xA1 else 0 }
  let full := decide (p.posts.length = p.n)
  let p : PostSet := { p with failed := if p.failed = 0 && full && p.overflows then 0xA4 else p.failed }
  { p with completed := if p.completed.isSome then p.completed else if full || decide (p.failed ≠ 0) then some now else none }

/-- R410: whether a set is still open to posts, or a member of it has not completed. -/
def State.setOpen (s : State) (p : PostSet) : Bool :=
  p.completed.isNone || (decide (p.failed ≠ 0) && decide (p.posts.length < p.n)) || p.posts.any fun x => (s.members.look x.mem).isSome

/-- R408, R410: sets whose members are gone are free again, and messages about them; of a lost hub only what its calendars rest on stands. -/
def State.freeSets (s : State) : State :=
  let due (p : PostSet) : Bool := s.xmsgs.any fun x => decide (x.kind = .calendar ∧ x.hub = p.hub ∧ x.set_ = p.set_)
  let sets := s.postSets.filter fun p => s.setOpen p.2 && (!s.deadHubs.contains p.2.hub || due p.2)
  { s with
    postSets := sets
    xmsgs := s.xmsgs.filter fun x => decide (x.kind = .go) && (s.members.look x.mem).isSome || sets.any fun p => decide (p.2.set_ = x.set_) }

/-- The post of a member that is on its way to a hub. -/
def State.postOf (s : State) (hub mem : Nat) : Option PostMsg := s.postQ.find? fun q => decide (q.hub = hub ∧ q.mem = mem)

/-- R263, R410: EXCHANGE_POST: a post reaches a Cartographer; with no open set of its key and no free set it waits. -/
def execExchangePost (hub mem : Nat) (s : State) : Outcome State Fault Refusal :=
  .next <| match s.postOf hub mem with
    | none => s
    | some q =>
      let mine := s.postSets.vals.find? fun p => p.keyed q && decide (p.hub = hub)
      if mine = none ∧ 64 ≤ (s.postSets.filter fun p => p.2.hub = hub).length then s
      else
        let other := s.postSets.vals.find? fun p => p.keyed q
        let p : PostSet := mine.getD ⟨(other.map fun p => p.set_).getD s.serial, hub, q.ctx, q.comm, q.seq, q.n, [], 0, none, none, [],
          false, none, false⟩
        let p := p.enter q (s.matches_.any fun x => x.hasKey q.ctx q.comm q.seq) s.now
        let s : State :=
          { s with
            serial := s.serial + 1
            postQ := s.postQ.filter fun x => decide (x ≠ q)
            members := s.members.mapVals fun id y => if id = mem ∧ y.stage = .checked then { y with stage := .joined } else y }
        let s := s.setPost p
        (if p.failed ≠ 0 ∧ p.issued.isSome then s.xsend .calendar hub p.set_ mem else s).freeSets

/-! ### Issue, acknowledgement and go (R412, R413, R415) -/

def otherHub (hub : Nat) : Nat := 1 - hub

/-- R413: the calendar goes to every member of a set, and a notice to the other Cartographer. -/
def State.issueCalendar (s : State) (p : PostSet) : State :=
  let s := s.setPost { p with issued := some s.now }
  let s := p.posts.foldl (fun s x => s.xsend .calendar p.hub p.set_ x.mem) s
  if s.deadHubs.contains (otherHub p.hub) then s else s.xsend .issueNote (otherHub p.hub) p.set_ 0

/-- R413: the go message goes to every member, and a notice to the other Cartographer. -/
def State.sendGo (s : State) (p : PostSet) : State :=
  let s := s.setPost { p with go := true }
  let s := p.posts.foldl (fun s x => s.xsend .go p.hub p.set_ x.mem) s
  if s.deadHubs.contains (otherHub p.hub) then s else s.xsend .goNote (otherHub p.hub) p.set_ 0

/-- R413: CALENDAR_ISSUE: the primary issues; the standby only by its timeout (R415). -/
def execCalendarIssue (hub set : Nat) (s : State) : Outcome State Fault Refusal :=
  .next <| match s.postSet hub set with
    | some p =>
      if hub = 0 ∧ p.completed.isSome ∧ p.issued = none ∧ p.seenIssue = none ∧ s.deadHubs.contains hub = false then s.issueCalendar p else s
    | none => s

def State.dropX (s : State) (msg : Nat) : State := { s with xmsgs := s.xmsgs.filter fun x => decide (x.msg ≠ msg) }
def State.xmsg (s : State) (msg : Nat) (k : XKind) : Option XMsg := s.xmsgs.find? fun x => decide (x.msg = msg ∧ x.kind = k)

/-- R397: the base dies of an endpoint that still serve. -/
def State.endpointDies (s : State) (g : Nat) : List Nat := (fromN (3 * g) 3).filter s.baseAlive

/-- R412, R413: CALENDAR_RECEIVE: the first calendar of a serial is kept, with its command entries; every copy is acknowledged. One
with a cause completes the member. An acknowledgement waits for the entries. R408: an endpoint with no base die left stops the context with 0xE6. -/
def execCalendarReceive (msg : Nat) (s : State) : Outcome State Fault Refusal :=
  .next <| match s.xmsg msg .calendar with
    | none => s
    | some x => match s.members.look x.mem, s.postSet x.hub x.set_ with
      | some y, some p =>
        let ack (s : State) : State := if s.deadHubs.contains x.hub then s.dropX msg else (s.dropX msg).xsend .ack x.hub x.set_ x.mem
        if p.failed ≠ 0 then
          let s := s.dropX msg
          if y.stage = .joined then { s with members := s.members.put y.mem { y with stage := .ready, cause := p.failed } } else s
        else if y.stage ≠ .joined then ack s
        else
          let dies := s.endpointDies y.die
          if dies = [] then (s.dropX msg).stopCtx y.core y.ctx 0xE6
          else if dies.all fun b => decide (s.occupied b < 16) then
            let D := p.demand
            let y : Member := { y with
              stage := .started
              total := p.total
              phases := p.calendar
              sent := (List.range p.n).map fun j => at2 D y.rank j
              from_ := (List.range p.n).map fun i => at2 D i y.rank
              entries := dies }
            ack { s with members := s.members.put y.mem y }
          else s
      | _, _ => s.dropX msg

/-- R413: whether a Cartographer holds every acknowledgement. -/
def PostSet.acked (p : PostSet) : Bool := p.posts.all fun x => p.acks.contains x.mem

/-- R413: CALENDAR_ACK. -/
def execCalendarAck (msg : Nat) (s : State) : Outcome State Fault Refusal :=
  .next <| match s.xmsg msg .ack with
    | none => s
    | some x =>
      let s := s.dropX msg
      match s.postSet x.hub x.set_ with
      | none => s
      | some p =>
        let p : PostSet := { p with acks := if p.acks.contains x.mem then p.acks else p.acks ++ [x.mem] }
        if p.acked && decide (p.hub = 0) && !p.go then s.sendGo p else s.setPost p

/-- R411: slots granted to a pair before a phase. -/
def Member.pairSlots (y : Member) (phase i j : Nat) : Nat :=
  ((y.phases.take phase).map fun p => if p.dest.getD i 0 = j then p.dur else 0).foldl (· + ·) 0
def Member.slotsBefore (y : Member) (phase j : Nat) : Nat := y.pairSlots phase y.rank j

/-- R414: whether a member sends data in a phase, and whether it receives some. -/
def Member.sends (y : Member) (phase : Nat) : Bool :=
  match y.phases[phase]? with
  | some p => decide (y.slotsBefore phase (p.dest.getD y.rank 0) < y.sent.getD (p.dest.getD y.rank 0) 0)
  | none => false
def Member.receives (y : Member) (phase : Nat) : Bool :=
  match y.phases[phase]? with
  | some p => (List.range y.n).any fun i => decide (p.dest.getD i 0 = y.rank ∧ y.pairSlots phase i y.rank < y.from_.getD i 0)
  | none => false

/-- R4, R414: the clk by which a member's last phase with data ends, counted from its go. -/
def Member.exchangeBound (y : Member) : Nat :=
  1300 + 8 * ((y.phases.zipIdx.filter fun p => y.sends p.2 || y.receives p.2).map fun p => p.1.start + p.1.dur).foldl max 0

/-- R413, R414: GO_MESSAGE: the first go starts a member's counter; later ones are ignored. -/
def execGoMessage (msg : Nat) (s : State) : Outcome State Fault Refusal :=
  .next <| match s.xmsg msg .go with
    | none => s
    | some x => match s.members.look x.mem with
      | none => s.dropX msg
      | some y =>
        if y.stage = .started then
          let now := (s.die y.die).clk
          { s.dropX msg with members := s.members.put y.mem { y with stage := .running, g0 := now, clk := now, bound := y.exchangeBound } }
        else if y.stage = .joined then s
        else s.dropX msg

/-- R415: ISSUE_NOTICE. -/
def execIssueNotice (hub set : Nat) (s : State) : Outcome State Fault Refusal :=
  .next <| match s.xmsgs.find? fun x => decide (x.kind = .issueNote ∧ x.hub = hub ∧ x.set_ = set), s.postSet hub set with
    | some x, some p => (s.dropX x.msg).setPost { p with seenIssue := some s.now }
    | _, _ => s

/-- R415: GO_NOTICE. -/
def execGoNotice (hub set : Nat) (s : State) : Outcome State Fault Refusal :=
  .next <| match s.xmsgs.find? fun x => decide (x.kind = .goNote ∧ x.hub = hub ∧ x.set_ = set), s.postSet hub set with
    | some x, some p => (s.dropX x.msg).setPost { p with seenGo := true }
    | _, _ => s

/-- R415: STANDBY_ISSUE_TIMEOUT. -/
def execStandbyIssueTimeout (set : Nat) (s : State) : Outcome State Fault Refusal :=
  .next <| match s.postSet 1 set with
    | some p => match if s.deadHubs.contains 1 then none else p.completed with
      | some t => if t + 10400 ≤ s.now ∧ p.issued = none ∧ p.seenIssue = none then s.issueCalendar p else s
      | none => s
    | none => s

/-- R415: STANDBY_GO_TIMEOUT. -/
def execStandbyGoTimeout (set : Nat) (s : State) : Outcome State Fault Refusal :=
  .next <| match s.postSet 1 set with
    | some p => match if s.deadHubs.contains 1 then none else p.issued with
      | some t => if t + 2600 ≤ s.now ∧ p.seenIssue = none ∧ p.go = false ∧ p.failed = 0 ∧ p.acked = true then s.sendGo p else s
      | none => s
    | none => s

/-- R415: STANDBY_NOGO_TIMEOUT. -/
def execStandbyNogoTimeout (set : Nat) (s : State) : Outcome State Fault Refusal :=
  .next <| match s.postSet 1 set with
    | some p => match if s.deadHubs.contains 1 then none else p.seenIssue with
      | some t => if t + 10400 ≤ s.now ∧ p.seenGo = false ∧ p.go = false ∧ p.failed = 0 then s.sendGo p else s
      | none => s
    | none => s

/-! ### Phases and completion (R264, R265, R414) -/

/-- The members of one exchange, by rank. -/
def State.partner (s : State) (y : Member) (r : Nat) : Option Member :=
  s.members.vals.find? fun z => z.exchange && !z.record.isEmpty && decide (z.ctx = y.ctx ∧ z.comm = y.comm ∧ z.seq = y.seq ∧ z.rank = r)

/-- R413, R414: a member has no calendar yet, and so knows neither what it sends nor where it places what comes. -/
def Member.unready (y : Member) : Bool := decide (y.stage = .checked ∨ y.stage = .joined)

/-- R264: where a member places the data from rank `i`. -/
def Member.roff (y : Member) (i : Nat) : Nat := 4096 * (y.from_.take i).foldl (· + ·) 0

/-- R264: the bytes that a member sends to `j` in all. -/
def Member.toSend (y : Member) (j : Nat) : Nat := min (xHave y.record j) (xPost y.record j)

/-- What a phase's transfer meets: a write of the sender's die that must merge first, a kind, poison, or the bytes with their places. -/
inductive PhaseRead where
  | wait
  | bad (kind : Nat)
  | poison
  | ok (cells : List (Nat × Byte))
deriving Repr

/-- R264, R284, R286: the bytes of a phase: from the send buffer, read at device scope, to the receive buffer of the destination. -/
def State.phaseBytes (s : State) (y z : Member) (j off n : Nat) : PhaseRead :=
  let src := xSendBuf y.record + xSoff y.record j + off
  let dst := xRecvBuf z.record + z.roff y.rank + off
  match leastBy id (s.rangeKinds y.ctx src n reading ++ s.rangeKinds y.ctx dst n writing) with
  | some k => .bad k
  | none =>
    let pas := s.rangePas y.ctx src n reading
    if s.readPending y.die (y.issues.map fun i => i.uid) y.mem pas then .wait
    else if s.anyPoison pas then .poison
    else if s.anyBad pas then .bad 7
    else .ok ((s.rangePas y.ctx dst n writing).zip (pas.map s.merged))

/-- A member after a kind that a phase, or its report, meets: the lowest cause stands. -/
def Member.meets (y : Member) (kind : Nat) : Member :=
  { y with cause := if y.cause = 0 then 0x47 + 8 * kind else min y.cause (0x47 + 8 * kind) }

/-- R414: EXCHANGE_PHASE_START: a member sends its data of a phase, once the destination has its calendar; what it has not, an end marker stands for. -/
def execExchangePhaseStart (mem phase : Nat) (s : State) : Outcome State Fault Refusal :=
  .next <| match s.members.look mem with
    | none => s
    | some y => match y.phases[phase]? with
      | none => s
      | some p =>
        if y.stage ≠ .running ∨ y.begun.contains phase = true ∨ (s.die y.die).clk < y.g0 + 8 * p.start then s
        else
          let j := p.dest.getD y.rank 0
          let off := min (y.toSend j) (4096 * y.slotsBefore phase j)
          let n := min (y.toSend j) (4096 * (y.slotsBefore phase j + p.dur)) - off
          let begun : Member := { y with begun := y.begun ++ [phase] }
          let keep (s : State) (y : Member) : State := { s with members := s.members.put mem y }
          match if n = 0 then none else s.partner y j with
          | none => keep s begun
          | some z =>
            if z.unready then s else
            let s := s.roundRange y.ctx (xSendBuf y.record + xSoff y.record j + off) n
            match s.phaseBytes y z j off n with
            | .wait => s
            | .bad k => keep s (begun.meets k)
            | .poison => (keep s begun).stopCtx y.core y.ctx 0xE3
            | .ok l =>
              let s := (s.touchRange y.ctx (xSendBuf y.record + xSoff y.record j + off) n reading).touchRange y.ctx
                (xRecvBuf z.record + z.roff y.rank + off) n writing
              let s := keep (s.hwWrite l) { begun with moved := y.moved.put j (y.moved.get 0 j + n) }
              match s.members.look z.mem with
              | some z => { s with members := s.members.put z.mem { z with rcvd := z.rcvd.put y.rank (z.rcvd.get 0 y.rank + n) } }
              | none => s

/-- R265: whether every phase in which a member sends or receives has ended; a partner that has not got its calendar yet has still to send. -/
def State.exchangeOver (s : State) (y : Member) : Bool :=
  let done (z : Member) (to_ : Option Nat) : Bool := (List.range z.phases.length).all fun k =>
    !z.sends k || z.begun.contains k
      || (match to_, z.phases[k]? with | some r, some p => decide (p.dest.getD z.rank 0 ≠ r) | _, _ => false)
  done y none && (List.range y.n).all fun i =>
    decide (y.from_.getD i 0 = 0) || (match s.partner y i with | some z => !z.unready && done z (some y.rank) | none => true)

/-- R265: the words that the endpoint writes into the record: resid, rcvd, roff. -/
def Member.resid (y : Member) (j : Nat) : Nat := xHave y.record j - xPost y.record j
def Member.report (y : Member) : List Nat :=
  ((List.range 8).map y.resid) ++ ((List.range 8).map fun i => y.rcvd.get 0 i) ++ (List.range 8).map y.roff

/-- R237, R265: EXCHANGE_COMPLETE. -/
def execExchangeComplete (mem : Nat) (s : State) : Outcome State Fault Refusal :=
  .next <| match s.members.look mem with
    | none => s
    | some y =>
      if y.exchange = false then s
      else if y.stage = .ready then (s.endMember y (y.status (s.die y.die).clk 0 false)).freeSets
      else if y.stage = .running ∧ s.exchangeOver y = true then
        let va := y.desc.toNat + 0x80
        let bad := leastBy id (s.rangeKinds y.ctx va 96 writing)
        let y := match bad with
          | some k => y.meets k
          | none => y
        let s := match bad with
          | some _ => s
          | none =>
            let pas := s.rangePas y.ctx va 96 writing
            (s.touchRange y.ctx va 96 writing).hwWrite (pas.zip (y.report.flatMap fun x => toBytes 4 x))
        let sent := (y.moved.map Prod.snd).foldl (· + ·) 0
        (s.endMember y (y.status (s.die y.die).clk (ceilDiv sent 4096) ((List.range 8).any fun j => decide (y.resid j ≠ 0)))).freeSets
      else s

end Sys2Proof.Machine
end

