-- ==== Sys2Proof/Machine/Admit.lean ====
section
/-! DEFINITION. Launch records and queues (R23, R365 to R368), predecessors (R369), edge consumers and their dispatches (R370), and the
completion of launches (R371). -/

namespace Sys2Proof.Machine

open Host (Outcome)

/-! ### Launch queues (R367) -/

def Ctx.queue (x : Ctx) (k : Nat) : LaunchQueue := SMap.get ({} : LaunchQueue) x.queues k
def State.setQueue (s : State) (c k : Nat) (q : LaunchQueue) : State :=
  s.setCtx c { s.ctx c with queues := (s.ctx c).queues.put k q }

/-- R367: LQ_TAIL_WRITE. -/
def execLqTailWrite (ctx cls : Nat) (val : BitVec 32) (s : State) : Outcome State Fault Refusal :=
  .next (s.setQueue ctx cls { (s.ctx ctx).queue cls with tail := val })

/-- R367: LQ_BASE_WRITE: a change while the queue holds records stops it. -/
def execLqBaseWrite (ctx cls : Nat) (val : BitVec 64) (s : State) : Outcome State Fault Refusal :=
  let q := (s.ctx ctx).queue cls
  .next (s.setQueue ctx cls { q with base := val, err := q.err || decide (q.head ≠ q.tail ∧ q.base ≠ val) })

/-- R367: LQ_SIZE_WRITE: a value outside 4 to 12 is ignored; a change while the queue holds records stops it. -/
def execLqSizeWrite (ctx cls : Nat) (val : BitVec 32) (s : State) : Outcome State Fault Refusal :=
  let q := (s.ctx ctx).queue cls
  let n := val.toNat % 16
  .next <|
    if n < 4 ∨ 12 < n then s
    else s.setQueue ctx cls { q with size := n, err := q.err || decide (q.head ≠ q.tail ∧ q.size ≠ n) }

/-! ### Launch records (R365) -/

/-- R365: a record from its 128 bytes. -/
def recordOf (b : List Byte) : LaunchRec :=
  let f (at_ n : Nat) : Nat := field b at_ n
  { tag := f 0 4, cls := f 4 1 % 4, mlight := decide (f 4 1 / 4 % 2 = 1), tpol := f 4 1 / 8 % 4, prog := f 5 1 % 16,
    entry := f 0x08 4, aentry := f 0x0C 4, widths := (List.range 6).map fun i => f (0x10 + i) 1, regs := f 0x16 1,
    gang := f 0x17 1, lstore := f 0x18 4, tiles := f 0x1C 1, accs := f 0x1D 1, barriers := f 0x1E 2, emin := f 0x20 1,
    emax := f 0x21 1, quantum := f 0x22 2, aff := decide (f 0x24 1 % 2 = 1), affva := BitVec.ofNat 64 (f 0x28 8),
    ext := [f 0x30 4, f 0x34 4, f 0x38 4], args := BitVec.ofNat 64 (f 0x40 8), statva := BitVec.ofNat 64 (f 0x48 8),
    inq := BitVec.ofNat 64 (f 0x50 8), depth := f 0x58 2, preds := (List.range 4).map fun k => f (0x60 + 4 * k) 4 }

/-- ⌈log2 n⌉, as the least width in which n values fit. -/
def widthFor (n : Nat) : Nat := ((List.range 64).find? fun w => decide (n ≤ 2 ^ w)).getD 64

/-- R23: the first check of the work identifier that fails, as a reason code. -/
def widReason (r : LaunchRec) : Option Nat :=
  let w (i : Nat) : Nat := r.widths.getD i 0
  if w 0 ≠ 5 ∨ 64 < r.widths.foldl (· + ·) 0 then some 0x10
  else if w 1 < widthFor r.emax then some 0x11
  else if w 2 < widthFor r.gang then some 0x12
  else ((List.range 3).find? fun i => decide (2 ^ w (3 + i) < r.ext.getD i 0)).map fun i => 0x13 + i

/-- R365: the fields and reserved bytes, with whether each is in error, by ascending offset. `used` holds the live tags. -/
def recordErrors (b : List Byte) (r : LaunchRec) (used : List Nat) : List (Nat × Bool) :=
  let f (at_ n : Nat) : Nat := field b at_ n
  let zero (at_ n : Nat) : List (Nat × Bool) := (fromN at_ n).map fun a => (a, decide (f a 1 ≠ 0))
  [(0x00, decide (r.tag = 0) || used.contains r.tag), (0x04, decide (2 ≤ r.tpol ∨ 32 ≤ f 4 1)), (0x05, decide (16 ≤ f 5 1))]
    ++ zero 0x06 2
    ++ [(0x08, decide (2 ^ 17 ≤ r.entry)), (0x0C, decide (2 ^ 17 ≤ r.aentry)), (0x16, decide (r.regs < 1 ∨ 12 < r.regs)),
        (0x17, decide (r.gang < 1 ∨ 4 < r.gang)), (0x18, decide (8192 < r.lstore)), (0x1C, decide (64 < r.tiles)),
        (0x1D, decide (16 < r.accs)), (0x1E, decide (128 < r.barriers ∨ r.lstore * 256 < r.barriers * 8)),
        (0x20, decide (r.emin < 1 ∨ 32 < r.emin)), (0x21, decide (r.emax < r.emin ∨ 32 < r.emax)), (0x22, decide (r.quantum = 0)),
        (0x24, decide (2 ≤ f 0x24 1))]
    ++ zero 0x25 3 ++ zero 0x3C 4
    ++ [(0x58, if r.inq = 0 then decide (r.depth ≠ 0) else decide (r.depth < 1 ∨ 256 < r.depth))]
    ++ zero 0x5A 6 ++ zero 0x70 16

/-! ### The program table (R366) -/

/-- R366: an entry of a context's program table: image address, length in parcels, valid. -/
structure Program where
  va : Nat
  len : Nat
  valid : Bool
deriving Repr

def State.program (s : State) (ctx i : Nat) : Program :=
  let pa := s.quota ctx 0x40 8 + 32 * i
  ⟨s.rdM pa 8, s.rdM (pa + 8) 4 % 2 ^ 17, decide (s.rdM (pa + 12) 1 % 2 = 1)⟩

/-! ### Admission (R368) -/

/-- R368: whether a context has a valid registered queue at an address, and the descriptor's physical address. -/
def State.queueAt (s : State) (ctx va : Nat) : Option Nat :=
  if va % 64 ≠ 0 then none
  else
    let r := s.engineRes ctx va queueWant
    if r.kinds = [] ∧ (s.qdesc r.pa).valid = true ∧ (s.qdesc r.pa).ctx = ctx then some r.pa else none

/-- The live launches of a context, dispatches left out. -/
def State.liveLaunches (s : State) (ctx : Nat) : SMap Launch := s.launches.filter fun p => decide (p.2.ctx = ctx) && p.2.parent.isNone

/-- R368: the live quads, of which a gang needs one with `n` consecutive cores (R373). DESIGN CHOICE (log 59): the spec names nothing that ends a
quad's life; Survey takes one out of service. -/
def State.liveQuads (s : State) : List Nat := (List.range 24).filter fun q => !s.regs.deadQuads.contains q
def State.gangFits (s : State) (n : Nat) : Bool := decide (n ≤ 4) && !s.liveQuads.isEmpty

/-- R368: the reason with which a record is rejected, in the order of the checks; none: it is admitted. -/
def State.reject (s : State) (ctx : Nat) (b : List Byte) (r : LaunchRec) : Option Nat :=
  let p := s.program ctx r.prog
  let errs := recordErrors b r ((s.liveLaunches ctx).map fun p => p.2.record.tag)
  let checks : List (Option Nat) :=
    [ widReason r,
      (errs.find? fun e => e.2).map Prod.fst,
      if !p.valid || s.rangeKinds ctx p.va (2 * p.len) reading ≠ [] then some 0x05 else none,
      if 122880 < p.len then some 0x05 else none,
      if p.len ≤ r.entry then some 0x08 else if p.len ≤ r.aentry then some 0x0C else none,
      if 576 * 1024 < r.regs * 8 * 128 * r.emax then some 0x16 else none,
      if (if s.splitMode ctx then 2 ^ 20 else 2 ^ 21) < r.lstore * 256 then some 0x18 else none,
      if s.quota ctx (0x58 + r.cls) 1 = 0 then some 0x04 else none,
      if r.aff && (match (s.walk ctx (pageOf r.affva.toNat)).1 with | .leaf _ _ _ => decide (2 ^ 52 ≤ r.affva.toNat) | .fault _ => true)
        then some 0x28 else none,
      if r.inq ≠ 0 ∧ (s.queueAt ctx r.inq.toNat).isNone = true then some 0x50 else none,
      ((List.range 4).find? fun k => decide (r.preds.getD k 0 = r.tag ∧ r.tag ≠ 0)).map fun k => 0x60 + 4 * k,
      if s.rangeKinds ctx r.statva.toNat 8 writing ≠ [] then some 0x48 else none,
      if s.gangFits r.gang then none else some 0x17 ]
  checks.findSome? id

/-- R459: the record of a launch status that is not written. -/
def State.postUnwritten (s : State) (ctx : Nat) (r : LaunchRec) (reason : Nat) : State :=
  s.postError ⟨0, 7, 0, 0, ctx, true, (s.die 0).clk, r.tag + r.statva.toNat * 2 ^ 32 + reason * 2 ^ 96⟩

/-- R371: the launch status at statva, or the error record where its page cannot be written. -/
def State.writeStatus (s : State) (ctx : Nat) (r : LaunchRec) (outcome cause reason wgs : Nat) : State :=
  let va := r.statva.toNat
  if s.rangeKinds ctx va 8 writing ≠ [] then s.postUnwritten ctx r reason
  else
    let s := s.touchRange ctx va 8 writing
    s.hwWrite ((s.rangePas ctx va 8 writing).zip (toBytes 8 (outcome + cause * 2 ^ 8 + reason * 2 ^ 16 + wgs * 2 ^ 32)))

/-- R367: whether a queue holds a record that the distributor may read. Queues of a context that is being killed admit nothing (R393),
and none does before the module is ready (R456). -/
def State.queueReady (s : State) (ctx cls : Nat) : Bool :=
  let x := s.ctx ctx
  let q := x.queue cls
  s.regs.ready && x.live && q.en && !q.err && decide (q.head ≠ q.tail) && !(s.regs.killing && decide (s.regs.killCtx = ctx))

/-- R367: the queue whose turn it is, as context * 4 + class. -/
def State.nextQueue (s : State) : Option Nat :=
  ((fromN s.lqTurn 256).map fun i => i % 256).find? fun i => s.queueReady (i / 4) (i % 4)

/-- R367 to R369: LAUNCH_ADMIT, for the queue whose turn it is. -/
def execLaunchAdmit (ctx cls : Nat) (s : State) : Outcome State Fault Refusal :=
  .next <|
    if s.nextQueue ≠ some (ctx * 4 + cls) then s
    else
      let q := (s.ctx ctx).queue cls
      let s : State := { s with lqTurn := (ctx * 4 + cls + 1) % 256 }
      let va := q.base.toNat + 128 * (q.head.toNat % 2 ^ q.size)
      let pas := s.rangePas ctx va 128 reading
      if s.rangeKinds ctx va 128 reading ≠ [] ∨ s.anyBad pas = true ∨ s.anyPoison pas = true then s.setQueue ctx cls { q with err := true }
      else
        let s := (s.touchRange ctx va 128 reading).roundSectors (runs (pas.map sectorOf))
        let b := pas.map s.merged
        let r := recordOf b
        let s := s.setQueue ctx cls { q with head := q.head + 1 }
        match s.reject ctx b r with
        | some 0x48 => s.postUnwritten ctx r 0x48
        | some c => s.writeStatus ctx r 1 0 c 0
        | none =>
          let waits := (s.liveLaunches ctx).filter fun p => r.preds.contains p.2.record.tag && !p.2.triggered
          let l : Launch := { launch := s.serial, ctx := ctx, record := r, holds := waits.map Prod.fst }
          { s with serial := s.serial + 1, launches := s.launches.put l.launch l }

/-! ### Edge consumers (R370) -/

/-- R370: the bytes of a dispatch block of `n` slots. -/
def blockBytes (n : Nat) : Nat := (64 + 8 * n + 63) / 64 * 64

/-- R200: the slot that holds a commit number. -/
def State.filledSlot (s : State) (q : QDesc) (num : Nat) : Option Nat :=
  (List.range q.count).find? fun i => let x := s.qslot q i; decide (x.st = 2 ∧ x.num = num)

/-- R198: the holder of slots that are dispatched to a workgroup that has not started. -/
def noHolder : Nat := 2 ^ 24 - 1

/-- R370: the consumer handle of a queue names a launch: its tag below, zero above. -/
def Launch.consumes (l : Launch) (q : QDesc) : Bool := decide (q.consumer = l.record.tag)

/-- R370: QUEUE_DISPATCH. -/
def execQueueDispatch (launch : Nat) (s : State) : Outcome State Fault Refusal :=
  .next <| match s.launches.look launch with
    | none => s
    | some l =>
      let r := l.record
      match if r.inq = 0 ∨ l.parent.isSome = true ∨ l.holds ≠ [] ∨ l.dead = true then none else s.queueAt l.ctx r.inq.toNat with
      | none => s
      | some pa =>
        let q := s.qdesc pa
        let i := l.dispatches
        let size := blockBytes q.batch
        let at_ := r.args.toNat + (i % r.depth) * size
        let held := s.launches.any fun p => decide (p.2.parent = some launch ∧ p.2.dnum % r.depth = i % r.depth)
          && !(decide (p.2.nextGang = 1) && decide (p.2.running = 0))
        let first := (q.cmt + 2 ^ 32 - q.filled) % 2 ^ 32
        let nums := (List.range q.batch).map fun j => (first + j) % 2 ^ 32
        let slots := nums.filterMap fun n => s.filledSlot q n
        if l.consumes q = false ∨ s.anyBad (fromN pa 64) = true ∨ q.filled < q.batch ∨ q.batch = 0 ∨ held = true ∨ slots.length ≠ q.batch
            ∨ s.rangeKinds l.ctx at_ size writing ≠ [] then s
        else
          let s := (slots.zip nums).foldl (fun s p => s.setQslot q p.1 ⟨3, p.2, noHolder⟩) s
          let s := s.hwWriteN (pa + 0x1C) 4 (q.filled - q.batch)
          let bytes := toBytes 8 (r.args.toNat + r.depth * size) ++ toBytes 8 r.inq.toNat ++ toBytes 4 first ++ toBytes 4 q.batch
            ++ toBytes 8 i ++ toBytes 32 0 ++ (slots.flatMap fun k => toBytes 8 (q.slots + k * 2 ^ q.zlog))
          let bytes := bytes ++ toBytes (size - bytes.length) 0
          let s := s.touchRange l.ctx at_ size writing
          let s := s.hwWrite ((s.rangePas l.ctx at_ size writing).zip bytes)
          let child : Launch :=
            { launch := s.serial, ctx := l.ctx, record := { r with ext := [1, 1, 1] }, holds := [], parent := some launch,
              argsAt := BitVec.ofNat 64 at_, dnum := i, queue := pa }
          { s with
            serial := s.serial + 1
            launches := (s.launches.put launch { l with dispatches := i + 1 }).put child.launch child }

/-- R200: the slots of a dispatch pass to its workgroup. -/
def State.assignSlots (s : State) (l : Launch) (ident : Nat) : State :=
  if l.parent.isNone then s
  else
    let q := s.qdesc l.queue
    let first := s.rdM ((s.engineRes l.ctx (l.argsAt.toNat + 0x10) reading).pa) 4
    ((List.range q.batch).map fun j => (first + j) % 2 ^ 32).foldl (fun s n =>
      match (List.range q.count).find? fun i => let x := s.qslot q i; decide (x.st = 3 ∧ x.num = n ∧ x.holder = noHolder) with
      | some i => s.setQslot q i ⟨3, n, ident⟩
      | none => s) s

/-! ### Completion (R371) -/

/-- R371: whether every workgroup that a launch starts has ended. -/
def Launch.allEnded (l : Launch) : Bool := (decide (l.nextGang = l.record.gangs) || l.dead) && decide (l.running = 0)

/-- R255, R371: an accepted copy to memory, issued before a serial, has still to write. -/
def State.copiesLeft (s : State) (x upto : Nat) : Bool := s.cores.any fun p => p.2.storeQ.any fun o => decide (o.ctx = x ∧ o.op < upto)

/-- R371: whether every workgroup that a launch starts has ended and its writes are performed, those of its copies among them. -/
def State.launchOver (s : State) (l : Launch) : Bool :=
  l.allEnded && s.ctxWritesDone l.ctx l.doneUpto && !s.copiesLeft l.ctx l.doneUpto

/-- R370: whether an edge consumer has nothing left to do: its queue is no longer registered and its dispatches are gone. -/
def State.consumerOver (s : State) (l : Launch) : Bool :=
  (s.queueAt l.ctx l.record.inq.toNat).isNone && !s.launches.any fun p => decide (p.2.parent = some l.launch)

/-- R369: a launch that is no longer live satisfies the tags that name it. -/
def State.endLaunch (s : State) (id : Nat) : State := ({ s with launches := s.launches.erase id }).satisfy id

/-- R371: LAUNCH_COMPLETE. Shadows that its writes have left are rounded first (R65). -/
def execLaunchComplete (launch : Nat) (s : State) : Outcome State Fault Refusal :=
  .next <| match s.launches.look launch with
    | none => s
    | some l =>
      if l.record.inq ≠ 0 ∧ l.parent = none then if s.consumerOver l then s.endLaunch launch else s
      else if s.launchOver l then
        (s.writeStatus l.ctx l.record l.outcome l.cause.toNat 0 l.ended).endLaunch launch
      else if l.allEnded then s.flushCtx l.ctx
      else s

end Sys2Proof.Machine
end

