-- ==== Sys2Proof/Machine/Atomic.lean ====
section
/-! DEFINITION. Atomics and reductions (R187 to R190). -/

namespace Sys2Proof.Machine

open Host (Outcome)

/-- What an atomic or reduction asks of a page: at system scope it may reach host memory. -/
def atomically (c : BitVec 3) : Want := ⟨true, true, true, decide (scopeOf c = .system)⟩

/-- R189: whether the memory instruction that follows a parcel is a FENCE of kind .ar, with instructions of the lanes' arithmetic and of pointers
alone before it (majors below 56, and 77). -/
def Core.fenceNext (k : Core) : Nat → Nat → Bool
  | 0, _ => false
  | n + 1, i =>
    let p := (k.parcel i).toNat
    let major := p / 4 % 128
    if !isWide p then k.fenceNext n (i + 1)
    else if major < 56 ∨ major = 77 then k.fenceNext n (i + 2)
    else match decode (k.parcel i) (k.parcel (i + 1)) with
      | .instr (.fence _ kind _) _ => decide (kind = 0)
      | _ => false

/-- R189: whether an atomic that the split issues is also a release and an acquire: its last memory instruction was a FENCE of kind .ar, or its next
one is. DEDUCED (log 109): a FENCE behind a branch or an instruction of another kind orders the atomic only while that is not performed. -/
def Iss.ordered (I : Iss) (s : State) : Bool := I.sp.afterFence || (s.core I.c).fenceNext 64 (I.sp.pc.toNat + 2)

/-- R187: an atomic of `nd` destination registers and `nv` operand registers. R189: ordered where a FENCE of kind `.ar` stands
next to it, and then also an acquire. -/
def atom (a : AtomOp) (nd nv : Nat) (m : Bool) (c : BitVec 3) (v : BitVec 7) (aa : BitVec 6) (d : BitVec 7) (s : State) :
    Outcome State Fault Refusal :=
  onSplit s fun I =>
    let rs := I.refs s (a6 aa) (lanes I.sp.mask) a.bytes (atomically c)
    let ord := I.ordered s
    I.access s m [(d.toNat, nd), addrOpd aa, (v.toNat, nv)] 2 rs fun s =>
      let s := s.dirtyPages I.c I.gr.ctx rs
      let id := s.serial
      (I.issueRead s m (I.op s (.atomic a true ord) (scopeOf c) d.toNat nd I.sp.mask 0
        (rs.map fun r => r.acc (I.gr.rdN v.toNat nv r.lane))) ord).noteAtom I id

/-- R63, R190: the kinds that a shadowed reduction adds: a local-store address or an attribute that does not match is a format
mismatch, a host-flag page a refusal. -/
def shadowKinds (fmts : List Nat) (r : Ref) : Ref :=
  match r.res.space with
  | .loc _ => { r with res := { r.res with kinds := 2 :: r.res.kinds } }
  | .host | .window _ => { r with res := { r.res with kinds := 1 :: r.res.kinds } }
  | .global =>
    if r.res.page.isSome && r.res.kinds.all (fun k => decide (1 < k ∧ k ≠ 7))
        && !(fmts.contains (leafFmt r.res.attr.toNat) && decide (leafGeom r.res.attr.toNat = 0)) then
      { r with res := { r.res with kinds := 2 :: r.res.kinds } }
    else r
  | _ => r

/-- R190: a reduction; `fmts` are the page formats that it asks for, none for the integer and FP32 operations. -/
def red (a : AtomOp) (nv : Nat) (fmts : Option (List Nat)) (m : Bool) (c : BitVec 3) (v : BitVec 7) (aa : BitVec 6) (s : State) :
    Outcome State Fault Refusal :=
  onSplit s fun I =>
    let rs := I.refs s (a6 aa) (lanes I.sp.mask) a.bytes (atomically c)
    let rs := match fmts with
      | some f => rs.map (shadowKinds f)
      | none => rs
    I.access s m [addrOpd aa, (v.toNat, nv)] 2 rs fun s =>
      let s := s.dirtyPages I.c I.gr.ctx rs
      I.issueWrite s m (I.op s (.atomic a false false) (scopeOf c) 0 0 I.sp.mask 0
        (rs.map fun r => r.acc (I.gr.rdN v.toNat nv r.lane)))

/-- R187: ATOM addI32. -/
def execAtomAddI32 (m : Bool) (c : BitVec 3) (v : BitVec 7) (a : BitVec 6) (d : BitVec 7) (s : State) : Outcome State Fault Refusal :=
  atom .addI32 1 1 m c v a d s
/-- R187: ATOM minI32. -/
def execAtomMinI32 (m : Bool) (c : BitVec 3) (v : BitVec 7) (a : BitVec 6) (d : BitVec 7) (s : State) : Outcome State Fault Refusal :=
  atom .minI32 1 1 m c v a d s
/-- R187: ATOM maxI32. -/
def execAtomMaxI32 (m : Bool) (c : BitVec 3) (v : BitVec 7) (a : BitVec 6) (d : BitVec 7) (s : State) : Outcome State Fault Refusal :=
  atom .maxI32 1 1 m c v a d s
/-- R187: ATOM minN32. -/
def execAtomMinN32 (m : Bool) (c : BitVec 3) (v : BitVec 7) (a : BitVec 6) (d : BitVec 7) (s : State) : Outcome State Fault Refusal :=
  atom .minN32 1 1 m c v a d s
/-- R187: ATOM maxN32. -/
def execAtomMaxN32 (m : Bool) (c : BitVec 3) (v : BitVec 7) (a : BitVec 6) (d : BitVec 7) (s : State) : Outcome State Fault Refusal :=
  atom .maxN32 1 1 m c v a d s
/-- R187: ATOM and. -/
def execAtomAnd (m : Bool) (c : BitVec 3) (v : BitVec 7) (a : BitVec 6) (d : BitVec 7) (s : State) : Outcome State Fault Refusal :=
  atom .and 1 1 m c v a d s
/-- R187: ATOM or. -/
def execAtomOr (m : Bool) (c : BitVec 3) (v : BitVec 7) (a : BitVec 6) (d : BitVec 7) (s : State) : Outcome State Fault Refusal :=
  atom .or 1 1 m c v a d s
/-- R187: ATOM xor. -/
def execAtomXor (m : Bool) (c : BitVec 3) (v : BitVec 7) (a : BitVec 6) (d : BitVec 7) (s : State) : Outcome State Fault Refusal :=
  atom .xor 1 1 m c v a d s
/-- R187: ATOM xchg. -/
def execAtomXchg (m : Bool) (c : BitVec 3) (v : BitVec 7) (a : BitVec 6) (d : BitVec 7) (s : State) : Outcome State Fault Refusal :=
  atom .xchg 1 1 m c v a d s
/-- R187: ATOM cas. -/
def execAtomCas (m : Bool) (c : BitVec 3) (v : BitVec 7) (a : BitVec 6) (d : BitVec 7) (s : State) : Outcome State Fault Refusal :=
  atom .cas 1 2 m c v a d s
/-- R187: ATOM addI64. -/
def execAtomAddI64 (m : Bool) (c : BitVec 3) (v : BitVec 7) (a : BitVec 6) (d : BitVec 7) (s : State) : Outcome State Fault Refusal :=
  atom .addI64 2 2 m c v a d s
/-- R187: ATOM casI64. -/
def execAtomCasI64 (m : Bool) (c : BitVec 3) (v : BitVec 7) (a : BitVec 6) (d : BitVec 7) (s : State) : Outcome State Fault Refusal :=
  atom .casI64 2 4 m c v a d s
/-- R187: ATOM faddF32. -/
def execAtomFaddF32 (m : Bool) (c : BitVec 3) (v : BitVec 7) (a : BitVec 6) (d : BitVec 7) (s : State) : Outcome State Fault Refusal :=
  atom .faddF32 1 1 m c v a d s
/-- R190: RED addI32. -/
def execRedAddI32 (m : Bool) (c : BitVec 3) (v : BitVec 7) (a : BitVec 6) (s : State) : Outcome State Fault Refusal :=
  red .addI32 1 none m c v a s
/-- R190: RED addI64. -/
def execRedAddI64 (m : Bool) (c : BitVec 3) (v : BitVec 7) (a : BitVec 6) (s : State) : Outcome State Fault Refusal :=
  red .addI64 2 none m c v a s
/-- R190: RED minI32. -/
def execRedMinI32 (m : Bool) (c : BitVec 3) (v : BitVec 7) (a : BitVec 6) (s : State) : Outcome State Fault Refusal :=
  red .minI32 1 none m c v a s
/-- R190: RED maxI32. -/
def execRedMaxI32 (m : Bool) (c : BitVec 3) (v : BitVec 7) (a : BitVec 6) (s : State) : Outcome State Fault Refusal :=
  red .maxI32 1 none m c v a s
/-- R190: RED minN32. -/
def execRedMinN32 (m : Bool) (c : BitVec 3) (v : BitVec 7) (a : BitVec 6) (s : State) : Outcome State Fault Refusal :=
  red .minN32 1 none m c v a s
/-- R190: RED maxN32. -/
def execRedMaxN32 (m : Bool) (c : BitVec 3) (v : BitVec 7) (a : BitVec 6) (s : State) : Outcome State Fault Refusal :=
  red .maxN32 1 none m c v a s
/-- R190: RED and. -/
def execRedAnd (m : Bool) (c : BitVec 3) (v : BitVec 7) (a : BitVec 6) (s : State) : Outcome State Fault Refusal :=
  red .and 1 none m c v a s
/-- R190: RED or. -/
def execRedOr (m : Bool) (c : BitVec 3) (v : BitVec 7) (a : BitVec 6) (s : State) : Outcome State Fault Refusal :=
  red .or 1 none m c v a s
/-- R190: RED xor. -/
def execRedXor (m : Bool) (c : BitVec 3) (v : BitVec 7) (a : BitVec 6) (s : State) : Outcome State Fault Refusal :=
  red .xor 1 none m c v a s
/-- R190: RED faddF32. -/
def execRedFaddF32 (m : Bool) (c : BitVec 3) (v : BitVec 7) (a : BitVec 6) (s : State) : Outcome State Fault Refusal :=
  red .faddF32 1 none m c v a s
/-- R190: RED faddBf16x2. -/
def execRedFaddBf16x2 (m : Bool) (c : BitVec 3) (v : BitVec 7) (a : BitVec 6) (s : State) : Outcome State Fault Refusal :=
  red .faddBf16x2 1 (some [7]) m c v a s
/-- R190: RED faddFp8. -/
def execRedFaddFp8 (m : Bool) (c : BitVec 3) (v : BitVec 7) (a : BitVec 6) (s : State) : Outcome State Fault Refusal :=
  red .faddFp8 1 (some [9, 10]) m c v a s

end Sys2Proof.Machine
end

