-- ==== Sys2Proof/Machine/Switch.lean ====
section
/-! DEFINITION. The context switch: halves of the local store (R342, R389), programs in the program store (R383, R384), the halt (R385,
R386), the image (R387, R388), held results (R391) and restore (R392); and the exchange of spill records (R27). -/

namespace Sys2Proof.Machine

open Host (Outcome)

/-! ### Halves of the local store (R342, R363, R389) -/

def Core.halfList (k : Core) : List Nat := if k.stacked then [0, 1] else [0]
def Core.halfOwner (k : Core) (h : Nat) : Option Nat := (SMap.get ({} : Half) k.halves h).owner
def Core.runs (k : Core) (ctx : Nat) : Bool := decide (k.ctx = some ctx) && !k.wgs.isEmpty

/-- R342: the halves that a context takes on a core: one by the three steps in split mode, both otherwise. -/
def State.halvesFor (s : State) (c ctx : Nat) : List Nat :=
  let k := s.core c
  if s.splitMode ctx then
    let own := k.halfList.filter fun h => decide (k.halfOwner h = some ctx)
    let free := k.halfList.filter fun h => decide (k.halfOwner h = none)
    let idle := k.halfList.filter fun h => (k.halfOwner h).any fun y => !k.runs y
    (own ++ free ++ idle).take 1
  else k.halfList

/-- R342: the halves that must be evicted before a context comes to a core. -/
def State.halvesToEvict (s : State) (c ctx : Nat) : List Nat :=
  (s.halvesFor c ctx).filter fun h => ((s.core c).halfOwner h).any fun y => decide (y ≠ ctx)

/-- R389: where a context's half of a core lies in its backing, and its name in `lsBacked`. -/
def State.backAt (s : State) (c ctx h : Nat) : Nat := s.quota ctx 0x48 8 + c * 2 ^ 21 + (if s.splitMode ctx then 0 else h * 2 ^ 20)
def State.backKey (s : State) (c ctx h : Nat) : Nat := c * 2 + (if s.splitMode ctx then 0 else h)

/-- The half that a core offset lies in. -/
def inHalf (h off : Nat) : Bool := decide (off / 2 ^ 20 = h)

/-- R389: a half is written to its owner's backing; its bytes are zeroed for the next owner (R363). -/
def State.evictHalf (s : State) (c h : Nat) : State :=
  let k := s.core c
  match k.halfOwner h with
  | none => s
  | some x =>
    let at_ := s.backAt c x h
    let key := s.backKey c x h
    let cells := (k.ls.filter fun p => inHalf h p.1).map fun p => (at_ + p.1 % 2 ^ 20, p.2)
    let s := (s.zeroRange at_ (2 ^ 20)).hwWrite cells
    let s := s.setCtx x { s.ctx x with lsBacked := (s.ctx x).lsBacked.filter (fun y => decide (y ≠ key)) ++ [key] }
    s.setCore c { k with ls := k.ls.filter (fun p => !inHalf h p.1), halves := k.halves.put h {} }

/-- R389: what a context's backing holds of a half of a core, by core offset. -/
def State.backedHalf (s : State) (c ctx h : Nat) : SMap Byte :=
  let at_ := s.backAt c ctx h
  if (s.ctx ctx).lsBacked.contains (s.backKey c ctx h) then
    (s.mem.filter fun p => decide (at_ ≤ p.1 ∧ p.1 < at_ + 2 ^ 20)).map fun p => (h * 2 ^ 20 + (p.1 - at_), p.2)
  else []

/-- R389: a free half passes to a context: read from its backing, or zero. -/
def State.takeHalf (s : State) (c ctx h : Nat) : State :=
  let k := s.core c
  if k.halfOwner h = some ctx then s
  else
    let key := s.backKey c ctx h
    let x := s.ctx ctx
    let bytes := s.backedHalf c ctx h
    let ls := (k.ls.filter fun p => decide (p.1 / 2 ^ 20 < h)) ++ bytes ++ k.ls.filter fun p => decide (h < p.1 / 2 ^ 20)
    (s.setCtx ctx { x with lsBacked := x.lsBacked.filter fun y => decide (y ≠ key) }).setCore c
      { k with ls := ls, halves := k.halves.put h { owner := some ctx } }

/-- R342, R17, R19: the context comes to the core with its halves. -/
def State.takeHalves (s : State) (c ctx : Nat) : State :=
  let hs := s.halvesFor c ctx
  let s := hs.foldl (fun s h => s.takeHalf c ctx h) s
  s.setCore c { s.core c with split := s.splitMode ctx, half := if s.splitMode ctx then hs.headD 0 else 0 }

/-- R389: LS_HALF_EVICT: a half whose owner runs nothing on the core. -/
def execLsHalfEvict (core half : Nat) (s : State) : Outcome State Fault Refusal :=
  .next <| match (s.core core).halfOwner half with
    | some x => if (s.core core).runs x then s else s.evictHalf core half
    | none => s

/-! ### Programs (R383, R384) -/

def regionParcels : Nat := 30720

def Resident.regions (p : Resident) : List Nat := fromN p.region (ceilDiv p.len regionParcels)

/-- R383: the program of a context's table on a core. -/
def Core.resident (k : Core) (ctx prog : Nat) (p : Program) : Option Resident :=
  k.programs.find? fun r => decide (r.ctx = ctx ∧ r.prog = prog ∧ r.va = p.va ∧ r.len = p.len)

/-- R384: whether a resident program has a workgroup on the core, saved or running. -/
def Core.inUse (k : Core) (r : Resident) : Bool :=
  let at_ (w : Nat × Workgroup) : Bool := decide (w.2.rbase = r.region * regionParcels)
  k.wgs.any at_ || k.slots.any fun p => (p.2.image.map fun im => im.wgs.any at_).getD false

/-- The first run of `n` regions that no resident program takes. -/
def freeRun (n : Nat) (l : List Resident) : Option Nat :=
  let used := l.flatMap Resident.regions
  (List.range 4).find? fun r => decide (r + n ≤ 4) && (fromN r n).all fun x => !used.contains x

/-- R384: regions for a program: free ones, else those of the least recently used programs that are not in use. -/
def Core.makeRoom (k : Core) (n : Nat) : Nat → List Resident → Option (Nat × List Resident)
  | 0, l => (freeRun n l).map fun r => (r, l)
  | m + 1, l => match freeRun n l with
    | some r => some (r, l)
    | none => match leastBy (fun r : Resident => r.used) (l.filter fun r => !k.inUse r) with
      | some x => k.makeRoom n m (l.filter fun r => decide (r ≠ x))
      | none => none

/-- R384: whether a program is on the core, or can be brought there. -/
def Core.canHold (k : Core) (ctx prog : Nat) (p : Program) : Bool :=
  (k.resident ctx prog p).isSome || (k.makeRoom (ceilDiv p.len regionParcels) 4 k.programs).isSome

/-- The parcels of an image, low byte first. -/
def parcelsOf : List Byte → List Parcel
  | a :: b :: t => (b ++ a) :: parcelsOf t
  | _ => []

/-- Replaces a run of parcels. -/
def Core.putParcels (k : Core) (at_ : Nat) (l : List Parcel) : Core :=
  let new : SMap Parcel := ((fromN at_ l.length).zip l).filter fun p => decide (p.2 ≠ 0)
  { k with pstore := (k.pstore.filter fun p => decide (p.1 < at_)) ++ new ++ k.pstore.filter fun p => decide (at_ + l.length ≤ p.1) }

/-- R384: the launch whose program cannot be read starts no further gang, and fails with the load's cause. -/
def State.loadFails (s : State) (ctx prog kind : Nat) : State :=
  match s.placing with
  | none => s
  | some p => match s.launches.look p.launch with
    | none => { s with placing := none }
    | some l =>
      if l.ctx ≠ ctx ∨ l.record.prog ≠ prog then s
      else if p.gang.isSome then { s with placing := none }
      else
        { s with
          placing := none
          launches := s.launches.put p.launch
            (if l.outcome ≠ 0 then { l with dead := true }
             else { l with dead := true, outcome := 2, cause := BitVec.ofNat 8 (0x40 + 8 * kind) }) }

/-- R384: the kinds that a program's image meets as it is read, poison as uncorrectable data. -/
def State.imageKinds (s : State) (ctx : Nat) (p : Program) : List Nat :=
  let kinds := s.rangeKinds ctx p.va (2 * p.len) reading
  let pas := s.rangePas ctx p.va (2 * p.len) reading
  if kinds = [] ∧ (s.anyBad pas = true ∨ s.anyPoison pas = true) then [7] else kinds

/-- R384: PROGRAM_LOAD. -/
def execProgramLoad (core ctx prog : Nat) (s : State) : Outcome State Fault Refusal :=
  .next <|
    let k := s.core core
    let p := s.program ctx prog
    if !(s.ctx ctx).live || (k.resident ctx prog p).isSome then s
    else match leastBy id (s.imageKinds ctx p) with
      | some kind => s.loadFails ctx prog kind
      | none => match k.makeRoom (ceilDiv p.len regionParcels) 4 k.programs with
        | none => s
        | some (r, l) =>
          let s := s.touchRange ctx p.va (2 * p.len) reading
          let ps := parcelsOf ((s.rangePas ctx p.va (2 * p.len) reading).map s.merged)
          State.setCore { s with serial := s.serial + 1 } core
            (Core.putParcels { k with programs := l ++ [⟨ctx, prog, p.va, r, p.len, s.serial⟩] } (r * regionParcels) ps)

/-- A program is used: it becomes the most recently used. -/
def Core.useProgram (k : Core) (r : Resident) (now : Nat) : Core :=
  { k with programs := k.programs.map fun x => if x = r then { x with used := now } else x }

/-! ### Halt and save (R385 to R388) -/

/-- R385, R199: PREEMPT_REQUEST: the core halts where its groups and sequencers stand; parked QPUSH requests are withdrawn. -/
def execPreemptRequest (core ctx : Nat) (s : State) : Outcome State Fault Refusal :=
  .next <|
    let k := s.core core
    if !k.runs ctx || k.halted then s
    else
      let uids := k.groups.map fun p => p.2.uid
      let keep (q : Queue) : Queue := { q with pushers := q.pushers.filter fun p => !uids.contains p.1 }
      { s with queues := s.queues.mapVals fun _ q => keep q }.setCore core { k with halted := true }

/-- R387: the image of the running context. -/
def Core.image (k : Core) (c ctx now : Nat) : Image :=
  { streams := k.arrivedStreams, ctx := ctx, core := c, cls := (k.wgs.map fun p => p.2.cls).foldl max 0, half := k.half, serial := now, groups := k.groups,
    wgs := k.wgs, accs := k.accs, weights := k.weights, perm := k.perm, tiles := k.tiles, mqueue := k.mqueue, mseq := k.mseq,
    cseq := k.cseq }

/-- R387: the running context moves from the core into a save slot; its gangs await restore. The weight slots and the permutation table keep their
contents on the core (R38). -/
def State.saveTo (s : State) (c ctx slot : Nat) : State :=
  let k := s.core c
  let gangs := k.wgs.map fun p => p.2.gang
  let mark (id : Nat) (g : Gang) : Gang := if gangs.contains id then { g with saved := true } else g
  { s with serial := s.serial + 1, gangs := s.gangs.mapVals mark }.setCore c
    { k with
      ctx := none, halted := false, groups := [], wgs := [], accs := [], tiles := [], mqueue := [], streams := []
      mseq := {}, cseq := {}
      slots := k.slots.put slot { image := some (k.image c ctx s.serial), zeroed := false } }

/-- R388: a free slot: it holds no image and has been zeroed. -/
def Core.freeSaveSlot (k : Core) : Option Nat :=
  (List.range 4).find? fun i => let x := SMap.get ({} : SaveSlot) k.slots i; x.image.isNone && x.zeroed

/-- Whether a context's backing of a core's image is in use. -/
def State.backed (s : State) (ctx core : Nat) : Bool := s.backing.any fun im => decide (im.ctx = ctx ∧ im.core = core)

/-- R388: the image to move to backing: lowest class, then oldest; never one of those to be restored. -/
def State.toBacking (s : State) (c : Nat) : Option Nat :=
  let keep := (s.placing.map fun p => p.images).getD []
  let l : List (Nat × Image) := (s.core c).slots.filterMap fun p => p.2.image.map fun im => (p.1, im)
  (leastBy (fun p : Nat × Image => p.2.cls * 2 ^ 64 + p.2.serial)
    (l.filter fun p => !s.backed p.2.ctx p.2.core && !keep.contains p.2.serial)).map Prod.fst

/-- R388: the steps that free a save slot: the zeroing of one that is released, or a move to backing. -/
def State.freeing (s : State) (c : Nat) : List Due :=
  match (List.range 4).find? fun i => let x := SMap.get ({} : SaveSlot) (s.core c).slots i; x.image.isNone && !x.zeroed with
  | some i => [.saveSlotZeroed c i]
  | none => match s.toBacking c with
    | some i => [.imageToBacking c i, .saveSlotZeroed c i]
    | none => []

/-- Steps that come before everything on the agenda. -/
def State.soon (s : State) (l : List Due) : State := { s with agenda := (l.map fun i => Turn.todo i) ++ s.agenda }

/-- R387, R388: CONTEXT_SAVE. -/
def execContextSave (core : Nat) (s : State) : Outcome State Fault Refusal :=
  .next <|
    let k := s.core core
    match if k.halted then k.ctx else none with
    | none => s
    | some x => match k.freeSaveSlot with
      | some i => s.saveTo core x i
      | none => match s.freeing core with
        | [] => s
        | l => s.soon (l ++ [.contextSave core])

/-- R388: SAVE_SLOT_ZEROED. -/
def execSaveSlotZeroed (core slot : Nat) (s : State) : Outcome State Fault Refusal :=
  let k := s.core core
  let x := SMap.get ({} : SaveSlot) k.slots slot
  .next (if x.image.isNone && !x.zeroed then s.setCore core { k with slots := k.slots.put slot {} } else s)

/-- R388, R394: an image is written to its context's image backing: 768 KiB a core, whose bytes are free (log 20). -/
def State.writeImage (s : State) (im : Image) : State :=
  let at_ := s.quota im.ctx 0x50 8 + im.core * (768 * 1024)
  let s := s.zeroRange at_ (768 * 1024)
  State.hwWrite { s with free := s.free + 1 } ((fromN at_ (768 * 1024)).zip (Config.imageBytes s.free))

/-- R388: IMAGE_TO_BACKING. -/
def execImageToBacking (core slot : Nat) (s : State) : Outcome State Fault Refusal :=
  .next <|
    let k := s.core core
    match (SMap.get ({} : SaveSlot) k.slots slot).image with
    | none => s
    | some im =>
      if s.backed im.ctx im.core then s
      else
        let s := s.writeImage im
        { s with backing := s.backing ++ [im] }.setCore core { k with slots := k.slots.put slot { image := none, zeroed := false } }

/-- R391: REDIRECT_APPLY: after the save, what the redirect buffer holds goes to the image. -/
def execRedirectApply (core : Nat) (s : State) : Outcome State Fault Refusal :=
  .next <|
    let k := s.core core
    if k.halted then s
    else
      let latest := leastBy (fun im : Image => s.serial - im.serial) (k.slots.filterMap fun p => p.2.image)
      k.redirect.foldl (fun s h => match h with
        | .op id => match s.ops.look id with
          | some o => s.deliver o
          | none => s
        | .status uid d mask x => s.giveStatus core ((latest.map fun im => im.ctx).getD 0) uid d mask x
        | .seqStatus cp d x => s.mapImages fun im => if some im = latest then im.modSeq cp fun q => q.status d x else im)
        (s.setCore core { k with redirect := [] })

/-! ### Restore (R342, R386, R392) -/

/-- Where a restored image goes: core to core, the half taken, and each workgroup's region of the program store. -/
structure Move where
  src : Nat
  dst : Nat
  split : Bool
  half : Nat
  regions : SMap Nat

/-- R389: a core offset of the image's partitions after the move. -/
def Move.off (m : Move) (off : Nat) : Nat := if m.split then off % 2 ^ 20 + m.half * 2 ^ 20 else off

/-- R384: a parcel number of a workgroup's program after the move; the supervisor region stays. -/
def Move.pc (m : Move) (w : Workgroup) (slot pc : Nat) : Nat :=
  if supBase ≤ pc then pc else pc - w.rbase + m.regions.get w.rbase slot

/-- Whether a core offset lies in a partition of an image. -/
def Image.owns (im : Image) (off : Nat) : Bool := im.wgs.any fun p => decide (p.2.base ≤ off ∧ off < p.2.base + p.2.size)

/-- A group at its new place: PCs, return stacks, trap state and barrier waits. -/
def Move.group (m : Move) (im : Image) (g : Group) : Group :=
  match im.wgs.look g.wg with
  | none => g
  | some w =>
    let pc (n : Nat) : Nat := m.pc w g.wg n
    let sp (x : Split) : Split :=
      { x with
        pc := BitVec.ofNat 17 (pc x.pc.toNat)
        wait := match x.wait with
          | .phase off ph => .phase (m.off off) ph
          | y => y }
    { g with
      slots := g.slots.mapVals fun _ x => sp x
      spill := g.spill.map sp
      frames := g.frames.mapVals fun _ f => f.mapVals fun _ e => BitVec.ofNat 32 (pc e.toNat)
      trapPend := g.trapPend.map fun t => { t with pc := BitVec.ofNat 17 (pc t.pc.toNat) }
      trapsplit :=
        if g.sup then
          g.trapsplit.extractLsb' 49 15 ++ BitVec.ofNat 17 (pc (g.trapsplit.extractLsb' 32 17).toNat) ++ g.trapsplit.extractLsb' 0 32
        else g.trapsplit }

/-- A workgroup at its new place: its partition, its program's region, and the barrier words that issues of COLL name. -/
def Move.wg (m : Move) (slot : Nat) (w : Workgroup) : Workgroup :=
  let issue (i : CollIssue) : CollIssue := { i with word := m.off i.word }
  { w with base := m.off w.base, rbase := m.regions.get w.rbase slot, qcount := 0, colls := w.colls.mapVals fun _ l => l.map issue }

/-- A queued operation of a sequencer after a restore to a core. -/
def MatrixOp.on (c : Nat) (o : MatrixOp) : MatrixOp :=
  match o.src with
  | .seq _ cp => { o with src := .seq c cp }
  | .grp _ => o

def Move.seq (m : Move) (im : Image) (q : Sequencer) : Sequencer :=
  match im.wgs.look q.wg with
  | some w => if q.run = .idle then q else { q with pc := BitVec.ofNat 17 (m.pc w q.wg q.pc.toNat) }
  | none => q

/-- The end of a copy cell after the move. -/
def Move.cellEnd (m : Move) (im : Image) : CopyEnd → CopyEnd
  | .loc c off => if c = m.src ∧ im.owns off = true then .loc m.dst (m.off off) else .loc c off
  | x => x

def Move.copy (m : Move) (im : Image) (o : CopyOp) : CopyOp :=
  let mine := decide (o.core = m.src ∧ o.ctx = im.ctx ∧ (im.wgs.look o.wg).isSome = true)
  let near := decide (o.lcore = m.src) && im.owns o.lfirst
  { o with
    lcore := if near then m.dst else o.lcore
    lfirst := if near then m.off o.lfirst else o.lfirst
    core := if mine then m.dst else o.core
    src := match o.src with
      | .seq c cp => .seq (if mine then m.dst else c) cp
      | x => x
    word := if mine then m.off o.word else o.word
    cells := o.cells.map fun x => { x with dst := m.cellEnd im x.dst } }

/-- An outstanding operation after the move. -/
def Move.op (m : Move) (im : Image) (o : Op) : Op :=
  let mine := im.has o.uid || decide (im.mseq.wait = .mperm o.op ∨ im.cseq.wait = .mperm o.op)
  { o with
    core := if mine then m.dst else o.core
    lanes := o.lanes.map fun l => match l.space with
      | .loc c => if c = m.src ∧ l.pas.all im.owns = true then { l with space := .loc m.dst, pas := l.pas.map m.off } else l
      | _ => l }

def Move.member (m : Move) (im : Image) (y : Member) : Member :=
  if y.core = m.src ∧ y.issues.any (fun i => im.has i.uid) = true then
    { y with
      core := m.dst
      tileOff := y.tileOff.map m.off
      issues := y.issues.map fun i => { i with word := m.off i.word } }
  else y

/-- R389, R392: the bytes of an image's partitions, by the image's core offsets, where they lie: in a half that its core keeps, or in backing. -/
def State.imageParts (s : State) (im : Image) : List (Nat × Byte) :=
  let k := s.core im.core
  let at_ (off : Nat) : Nat := if s.splitMode im.ctx then off % 2 ^ 20 + im.half * 2 ^ 20 else off
  let held := k.halfList.filter fun h => decide (k.halfOwner h = some im.ctx)
  let back := if s.splitMode im.ctx then (if held.isEmpty then [0] else []) else k.halfList.filter fun h => !held.contains h
  ((held.flatMap (fun h => k.ls.filter fun p => inHalf h p.1) ++ back.flatMap (s.backedHalf im.core im.ctx)).map fun p => (at_ p.1, p.2)).filter
    fun p => im.owns p.1

/-- R389, R392: the partitions of a moved image take their bytes to its new core. -/
def State.bringParts (s : State) (m : Move) (im : Image) (bytes : List (Nat × Byte)) : State :=
  let mine := im.wgs.map fun p => (m.off p.2.base, p.2.size)
  let k := s.core m.dst
  let k : Core := { k with ls := k.ls.filter fun p => !mine.any fun r => decide (r.1 ≤ p.1 ∧ p.1 < r.1 + r.2) }
  s.setCore m.dst (k.lsWrite (bytes.map fun p => (m.off p.1, p.2)))

/-- Everything outside the image that names a place of the moved workgroups. -/
def State.relocate (s : State) (m : Move) (im : Image) : State :=
  let k := s.core m.src
  let mineA (a : Arrival) : Bool := decide (a.ctx = im.ctx) && im.owns a.offset
  let arr := (k.arrivals.filter mineA).map fun a => { a with offset := m.off a.offset }
  let s := s.setCore m.src { k with arrivals := k.arrivals.filter fun a => !mineA a }
  let d := s.core m.dst
  let s := s.setCore m.dst { d with arrivals := d.arrivals ++ arr }
  let fix (k : Core) : Core := { k with loadQ := k.loadQ.map (m.copy im), storeQ := k.storeQ.map (m.copy im) }
  { s with
    cores := s.cores.mapVals fun _ k => fix k
    ops := s.ops.mapVals fun _ o => m.op im o
    members := s.members.mapVals fun _ y => m.member im y }

/-- R388, R392: the images that may be restored to a core: its own slots', and those that come through backing. -/
def State.restorable (s : State) (core ctx : Nat) : List Image :=
  let sh : Int := (s.placing.map fun p => p.shift).getD 0
  let want : Image → Bool := match s.placing with
    | some p => fun im => p.images.isEmpty || p.images.contains im.serial
    | none => fun _ => true
  (((s.core core).slots.filterMap fun p => p.2.image) ++ s.backing).filter fun im =>
    decide (im.ctx = ctx) && want im && decide ((core : Int) = im.core + sh)

/-- R383: the program of a saved workgroup on a core. -/
def State.residentFor (s : State) (core : Nat) (w : Workgroup) : Option Resident :=
  (s.launches.look w.launch).bind fun l => (s.core core).resident w.ctx l.record.prog (s.program w.ctx l.record.prog)

/-- R385: a core that holds no work and may take some. -/
def Core.idle (k : Core) : Bool := k.wgs.isEmpty && !k.halted && !k.gated && k.redirect.isEmpty

/-- R392: an image comes back to a core that is ready for it. On another core than its own the context's L1 lines there are dropped (R279). -/
def State.restore (s : State) (core : Nat) (im : Image) : State :=
  let k := s.core core
  let fromSlot := k.slots.any fun p => decide (p.2.image = some im)
  let slot := (if fromSlot then (k.slots.find? fun p => decide (p.2.image = some im)).map Prod.fst else k.freeSaveSlot).getD 0
  let away := decide (im.core ≠ core)
  let bytes := if away then s.imageParts im else []
  let s := s.takeHalves core im.ctx
  let rs := im.wgs.filterMap fun p => (s.residentFor core p.2).map fun r => (p.1, r)
  let m : Move := ⟨im.core, core, s.splitMode im.ctx, (s.core core).half, rs.map fun p => (p.1, p.2.region * regionParcels)⟩
  let s := if away then s.bringParts m im bytes else s
  let s := s.relocate m im
  let k := rs.foldl (fun k p => k.useProgram p.2 s.serial) (s.core core)
  let k := if im.acquired || away then k.l1Invalidate im.ctx else k
  let wgs := im.wgs.mapVals fun i w => m.wg i w
  let groups := im.groups.mapVals fun _ g => m.group im g
  let gangs := im.wgs.map fun p => p.2.gang
  let back (id : Nat) (g : Gang) : Gang :=
    if gangs.contains id then { g with saved := false, cores := g.cores.map fun c => if c = im.core then core else c } else g
  let asks (q : SMap Queue) (g : Group) : SMap Queue := match g.park with
    | .qpush op a => let x := SMap.get ({} : Queue) q a; q.put a { x with pushers := x.pushers ++ [(g.uid, op)] }
    | _ => q
  let s : State :=
    { s with
      serial := s.serial + 1
      gangs := s.gangs.mapVals back
      queues := groups.vals.foldl asks s.queues
      backing := s.backing.filter fun x => decide (x ≠ im)
      placing := match s.placing with
        | some p =>
          let left := p.images.filter fun x => decide (x ≠ im.serial)
          if p.images.contains im.serial ∧ left = [] then none else some { p with images := left }
        | none => none }
  State.rereadStreams (core := core) <| s.setCore core
    { k with
      ctx := some im.ctx, wctx := some im.ctx, progress := s.clkOf core, groups := groups, wgs := wgs, accs := im.accs, weights := im.weights, perm := im.perm, tiles := im.tiles,
      mqueue := im.mqueue.map (MatrixOp.on core), streams := im.streams, mseq := m.seq im im.mseq, cseq := m.seq im im.cseq
      slots := k.slots.put slot { image := none, zeroed := false } }

/-- R392: CONTEXT_RESTORE, the oldest image first; an image in backing passes through a free slot (R388). -/
def execContextRestore (core ctx : Nat) (s : State) : Outcome State Fault Refusal :=
  .next <|
    let k := s.core core
    match if k.idle then leastBy (fun im : Image => im.serial) (s.restorable core ctx) else none with
    | none => s
    | some im =>
      if !(s.halvesToEvict core ctx).isEmpty || im.wgs.any fun p => (s.residentFor core p.2).isNone then s
      else if (k.slots.any fun p => decide (p.2.image = some im)) || k.freeSaveSlot.isSome then s.restore core im
      else match s.freeing core with
        | [] => s
        | l => s.soon (l ++ [.contextRestore core ctx])

/-! ### Spill records (R27) -/

/-- R27: SPILL_EXCHANGE: a record that has waited takes the place of a split in a slot. -/
def execSpillExchange (core grp : Nat) (s : State) : Outcome State Fault Refusal :=
  .next <| s.modGrp core grp fun g =>
    if g.park = .run ∧ g.trapPend = none ∧ (s.core core).halted = false then g.exchange else g

end Sys2Proof.Machine
end

