-- ==== Sys2Proof/Machine/Place.lean ====
section
/-! DEFINITION. The launch distributor's choice of work and cores (R372 to R377), the start of gangs (R38, R174, R288, R342, R363), quanta
(R378) and shrink requests (R380). -/

namespace Sys2Proof.Machine

open Host (Outcome)

/-! ### Virtual time and reservations (R374) -/

/-- A common multiple of all shares, so that a virtual time is a whole number. -/
def shareLcm : Nat := (List.range 255).foldl (fun a i => Nat.lcm a (i + 1)) 1

def State.share (s : State) (x k : Nat) : Nat := s.quota x (0x58 + k) 1

/-- R374: the virtual time of a context in a class. DESIGN CHOICE (log 110): while its share is 0, for which the rule names no value, it is 0. -/
def State.vt (s : State) (x k : Nat) : Nat := (s.ctx x).vtime.get 0 k * (shareLcm / s.share x k)

/-- R374, R375: the cores on which a context holds at least one workgroup of class 3. -/
def State.cores3 (s : State) (x : Nat) : Nat :=
  (s.cores.filter fun p => p.2.wgs.any fun w => decide (w.2.ctx = x ∧ w.2.cls = 3)).length

def State.resv3 (s : State) (x : Nat) : Nat := s.quota x 0x5C 1

/-- A list in rising order of a measure; equals keep their order. -/
def insertBy {α : Type} (f : α → Nat) (x : α) : List α → List α
  | [] => [x]
  | y :: t => if f x < f y then x :: y :: t else y :: insertBy f x t
def sortBy {α : Type} (f : α → Nat) (l : List α) : List α := l.foldl (fun r x => insertBy f x r) []

/-! ### What a core can take (R373) -/

/-- The partitions of a context on a core, running and saved, as (first offset, bytes) of the half that it takes. -/
def State.partitions (s : State) (c ctx half : Nat) : List (Nat × Nat) :=
  let k := s.core c
  let of (l : SMap Workgroup) : List (Nat × Nat) :=
    l.filterMap fun w =>
      if w.2.ctx = ctx ∧ w.2.size ≠ 0 then
        some (if s.splitMode ctx then w.2.base % 2 ^ 20 + half * 2 ^ 20 else w.2.base, w.2.size)
      else none
  of k.wgs ++ (s.images.filter fun im => decide (im.ctx = ctx ∧ im.core = c)).flatMap fun im => of im.wgs

/-- R342: the first free contiguous partition of a size within the capacity that the context may use. -/
def State.partition (s : State) (c ctx size : Nat) : Option Nat :=
  let h := if s.splitMode ctx then (s.halvesFor c ctx).headD 0 else 0
  let lo := h * 2 ^ 20
  let hi := if s.splitMode ctx then lo + 2 ^ 20 else (s.core c).halfList.length * 2 ^ 20
  let ps := s.partitions c ctx h
  leastBy id ((lo :: ps.map fun p => p.1 + p.2).filter fun a =>
    decide (lo ≤ a ∧ a + size ≤ hi) && ps.all fun p => decide (a + size ≤ p.1 ∨ p.1 + p.2 ≤ a))

/-- The physical tile entries and accumulators that no workgroup on the core has. -/
def Core.freeTiles (k : Core) : List Nat := (List.range 64).filter fun e => !k.wgs.any fun w => w.2.tiles.contains e
def Core.freeAccs (k : Core) : List Nat := (List.range 16).filter fun e => !k.wgs.any fun w => w.2.accs.contains e

/-- A core that can take work of a context at once: it runs the context, or nothing. -/
def State.openTo (s : State) (c ctx : Nat) : Bool :=
  let k := s.core c
  !k.halted && !k.gated && k.redirect.isEmpty && (k.wgs.isEmpty || decide (k.ctx = some ctx))

/-- R373: what a new workgroup needs of a core besides groups. -/
def State.canTakeBut (s : State) (l : Launch) (c : Nat) : Bool :=
  let k := s.core c
  let r := l.record
  s.openTo c l.ctx && decide (r.accs ≤ k.freeAccs.length) && decide (r.tiles ≤ k.freeTiles.length)
    && (s.partition c l.ctx (r.lstore * 256)).isSome && k.canHold l.ctx r.prog (s.program l.ctx r.prog)

/-- R373: whether a core can take a new workgroup of a launch at emin groups. -/
def State.canTake (s : State) (l : Launch) (c : Nat) : Bool :=
  s.canTakeBut l c && decide (l.record.emin ≤ s.roomFor c l.ctx (8 * l.record.regs))

/-- R174: whether the context has stack blocks for a gang. -/
def State.hasBlocks (s : State) (l : Launch) : Bool :=
  decide (l.record.gang * l.record.emin + (s.ctx l.ctx).blocks.length ≤ (s.ctx l.ctx).stackn)

/-! ### Places, in the order of R373 -/

/-- The cores of a gang of size `n` at a position of a quad. -/
def State.placesOf (s : State) (n : Nat) : List (List Nat) :=
  s.liveQuads.flatMap fun q => (List.range (5 - n)).map fun j => fromN (4 * q + j) n

/-- R373: the die preferred for a launch: the physical die of the home group of affva's page. -/
def State.affDie (s : State) (l : Launch) : Option Nat :=
  if !l.record.aff then none
  else match (s.walk l.ctx (pageOf l.record.affva.toNat)).1 with
    | .leaf _ e _ => if leafBit e 9 || leafBit e 7 then none else some (s.physGroup (leafHgroup e))
    | .fault _ => none

/-- R373: the place's rank in the distributor's order. -/
def State.placeKey (s : State) (l : Launch) (cs : List Nat) : Nat :=
  let c := cs.headD 0
  let d := dieOf c
  let here := (fromN (12 * d) 12).any fun y => ((s.core y).resident l.ctx l.record.prog (s.program l.ctx l.record.prog)).isSome
  let quad := (fromN (c / 4 * 4) 4).any fun y => (s.core y).runs l.ctx
  (if s.affDie l = some d then 0 else 4096) + (if here then 0 else 2048) + (if quad then 0 else 1024) + c

/-! ### Pre-emption (R375, R378) -/

/-- R378: whether a gang's quantum has expired, by its rank-0 workgroup. DESIGN CHOICE (log 111): the spec does not say whose counter counts once that
workgroup has ended; here the quantum of such a gang does not expire. -/
def State.expired (s : State) (gang : Nat) : Bool :=
  (s.gangWgs gang).any fun p => (s.wgOf p.1 p.2).any fun w => decide (w.rank = 0 ∧ w.quantum * 1300 ≤ w.qcount)

/-- R375: whether a gang of a class and context may pre-empt a workgroup. -/
def State.mayPreempt (s : State) (x k : Nat) (w : Workgroup) : Bool :=
  decide (w.cls < k)
    || (decide (w.cls = k ∧ w.ctx ≠ x) && s.expired w.gang && decide (s.vt x k < s.vt w.ctx k))
    || (decide (k = 3 ∧ w.cls = 3 ∧ w.ctx ≠ x) && decide (s.resv3 w.ctx < s.cores3 w.ctx) && decide (s.cores3 x < s.resv3 x))

/-- The cores that hold a workgroup of a gang that has one on the given cores. -/
def State.closure (s : State) (cs : List Nat) : List Nat :=
  iter (fun cs =>
    let gs := cs.flatMap fun c => (s.core c).wgs.map fun w => w.2.gang
    (cs ++ (gs.flatMap fun g => (s.gangWgs g).map Prod.fst)).eraseDups) 4 cs

/-- The workgroups on some cores. -/
def State.wgsOn (s : State) (cs : List Nat) : List Workgroup := cs.flatMap fun c => (s.core c).wgs.vals

/-- The state as it would be with the work of some cores saved. -/
def State.cleared (s : State) (cs : List Nat) : State :=
  cs.foldl (fun s c => match (s.core c).ctx with
    | some x => if (s.core c).wgs.isEmpty then s else s.saveTo c x (1000 + s.serial)
    | none => s) s

/-- R375: the rank of a set of victims: lowest class first, then highest virtual time, then latest start. -/
def State.victimKey (s : State) (ws : List Workgroup) : Nat :=
  let cls := (ws.map fun w => w.cls).foldl max 0
  let vt := ((ws.filter fun w => decide (w.cls = cls)).map fun w => s.vt w.ctx w.cls)
  let old := ((ws.filter fun w => decide (w.cls = cls)).map fun w => w.started)
  let B := 2 ^ 512
  (cls * B + (B - 1 - min (B - 1) ((leastBy id vt).getD (B - 1)))) * 2 ^ 64 + (2 ^ 64 - 1 - min (2 ^ 64 - 1) ((leastBy id old).getD 0))

/-! ### Gangs that wait (R372) -/

/-- A gang that waits to start or to be restored. -/
structure Waiting where
  l : Launch
  gang : Option Gang

/-- R377: whether a die's collective occupancy exceeds the memory-light threshold. -/
def State.crowded (s : State) (c : Nat) : Bool := decide (s.regs.memLight < s.occupancy (dieOf c))

/-- R384, R392: the images that must be restored together with a gang: those that hold it, and those that share a gang with them. -/
def State.imagesFor (s : State) (gang : Nat) : List Image :=
  iter (fun (ims : List Image) =>
    let gs := gang :: ims.flatMap fun im => im.wgs.map fun w => w.2.gang
    s.images.filter fun im => im.wgs.any fun w => gs.contains w.2.gang) 4 []

/-- R392: whether an image can come to a core that is idle. -/
def State.canRestore (s : State) (im : Image) (c : Nat) : Bool :=
  let k := s.core c
  k.idle && im.wgs.all fun p => match s.launches.look p.2.launch with
    | some l => k.canHold im.ctx l.record.prog (s.program im.ctx l.record.prog)
        && ((s.residentFor c p.2).isSome
          || decide (s.imageKinds im.ctx (s.program im.ctx l.record.prog) = []))
    | none => false

/-- R392: whether an image can go to a core other than its own, through backing: the context has none there. -/
def State.canMove (s : State) (im : Image) (c : Nat) : Bool :=
  s.canRestore im c && (s.backing.contains im || !s.backed im.ctx im.core) && !s.images.any fun x => decide (x.ctx = im.ctx ∧ x.core = c)

/-! ### Placement (R372, R373, R375) -/

/-- A new gang on free resources, on the dies that a test accepts. -/
def State.placeFree (s : State) (l : Launch) (ok : Nat → Bool) : Option Placing :=
  if !s.hasBlocks l then none
  else (leastBy (s.placeKey l) ((s.placesOf l.record.gang).filter fun cs => ok (cs.headD 0) && cs.all fun c => s.canTake l c)).map fun cs =>
    ⟨l.launch, none, cs, [], 0, [], 0, none, 0⟩

/-- A new gang where running work must be saved first. -/
def State.placeOver (s : State) (l : Launch) : Option Placing :=
  if !s.hasBlocks l then none
  else
    let options := (s.placesOf l.record.gang).filterMap fun cs =>
      let need := s.closure (cs.filter fun c => !s.canTake l c)
      let ws := s.wgsOn need
      if ws.isEmpty || !(ws.all fun w => s.mayPreempt l.ctx l.record.cls w) then none
      else if need.any fun c => (s.core c).halted then none
      else
        let s' := s.cleared need
        if cs.all fun c => s'.canTake l c then some (cs, need, s.victimKey ws * 2 ^ 16 + s.placeKey l cs) else none
    (leastBy (fun o : List Nat × List Nat × Nat => o.2.2) options).map fun o => ⟨l.launch, none, o.1, [], 0, o.2.1, 0, none, 0⟩

/-- A saved gang: on its own cores, free or pre-empted, or on others through backing. -/
def State.placeSaved (s : State) (l : Launch) (g : Gang) : Option Placing :=
  let ims := s.imagesFor g.gang
  let home := ims.map fun im => im.core
  let ids := ims.map fun im => im.serial
  let need := s.closure (home.filter fun c => !(s.core c).wgs.isEmpty)
  let s' := s.cleared need
  if ims.isEmpty || home.eraseDups.length ≠ home.length then none
  else if ims.all fun im => s.canRestore im im.core then some ⟨l.launch, some g.gang, home, ids, 0, [], 0, none, 0⟩
  else if (s.wgsOn need).all (fun w => s.mayPreempt l.ctx l.record.cls w) && (need.all fun c => !(s.core c).halted)
      && ims.all fun im => s'.canRestore im im.core then some ⟨l.launch, some g.gang, home, ids, 0, need, 0, none, 0⟩
  else
    let lo := (leastBy id home).getD 0
    let hi := home.foldl max 0
    let tos := (List.range 96).filter fun c => decide (c ≠ lo ∧ c / 4 = (c + (hi - lo)) / 4)
      && ims.all fun im => s.canMove im (c + (im.core - lo))
    (leastBy (fun c => s.placeKey l [c]) tos).map fun c =>
      ⟨l.launch, some g.gang, home.map fun y => c + (y - lo), ids, (c : Int) - lo, [], 0, none, 0⟩

/-- What a gang lacks of the resources of groups: places for groups on a core, bytes of its register file, stack blocks of the context. -/
structure Lack where
  groups : Nat
  bytes : Nat
  blocks : Nat
deriving DecidableEq, Repr

def Lack.none_ (x : Lack) : Bool := decide (x = ⟨0, 0, 0⟩)

/-- R6, R380: what a workgroup of a launch lacks on a core. -/
def State.lackOn (s : State) (l : Launch) (c : Nat) : Lack :=
  let k := s.core c
  let file := (k.groups.map fun p => p.2.nregs * 128).foldl (· + ·) 0
  let mine := (k.groups.filter fun p => p.2.ctx = l.ctx).length
  let room := min (48 - k.groups.length) (s.quota l.ctx 0x5E 2 - mine)
  ⟨l.record.emin - room, l.record.emin * l.record.regs * 1024 - (576 * 1024 - file), 0⟩

/-- R174, R380: the stack blocks that a gang of a launch lacks. -/
def State.lackBlocks (s : State) (l : Launch) : Nat := l.record.gang * l.record.emin + (s.ctx l.ctx).blocks.length - (s.ctx l.ctx).stackn

/-- R380: groups asked of workgroups, by core and slot, and how many of them one is asked for. -/
def askedOf (l : List (Nat × Nat × Nat)) (c w : Nat) : Nat := ((l.filter fun x => decide (x.1 = c ∧ x.2.1 = w)).map fun x => x.2.2).foldl (· + ·) 0

/-- R380: the groups that an elastic workgroup holds above its minimum and is not yet asked for, and how many of them make up for a lack. -/
def State.above (s : State) (l : List (Nat × Nat × Nat)) (c : Nat) (p : Nat × Workgroup) : Nat := s.wgSize c p.1 - p.2.emin - askedOf l c p.1
def Lack.share (x : Lack) (spare nregs : Nat) : Nat := min spare (max x.groups (max x.blocks (ceilDiv x.bytes (nregs * 128))))
def Lack.less (x : Lack) (g nregs : Nat) : Lack := ⟨x.groups - g, x.bytes - g * nregs * 128, x.blocks - g⟩

/-- R380: the elastic workgroups of a context on some cores, from the one with the most groups above its minimum. -/
def State.elastics (s : State) (l : List (Nat × Nat × Nat)) (x : Nat) (cs : List Nat) : List (Nat × Nat × Workgroup) :=
  sortBy (fun p : Nat × Nat × Workgroup => 64 - s.above l p.1 p.2)
    (cs.flatMap fun c => ((s.core c).wgs.filter fun p => decide (p.2.ctx = x ∧ p.2.emin < p.2.emax)).map fun p => (c, p))

/-- R380: each workgroup's share of a lack, and what is left of it. -/
def State.shares (s : State) (l : List (Nat × Nat × Nat)) (x : Nat) (cs : List Nat) (lack : Lack) : List (Nat × Nat × Nat) × Lack :=
  (s.elastics l x cs).foldl (fun r p =>
    let g := r.2.share (s.above l p.1 p.2) p.2.2.nregs
    if g = 0 then r else (r.1 ++ [(p.1, p.2.1, g)], r.2.less g p.2.2.nregs)) ([], lack)

/-- R380: the shares that make room for a gang on some cores, where elastic workgroups of its context hold enough: core by core, then the stack
blocks that are still lacking, on any core. A workgroup has one share. -/
def State.sharesFor (s : State) (l : Launch) (cs : List Nat) : Option (List (Nat × Nat × Nat)) :=
  let here := cs.map fun c => s.shares [] l.ctx [c] (s.lackOn l c)
  let asked := here.flatMap fun r => r.1
  let freed := (asked.map fun x => x.2.2).foldl (· + ·) 0
  let rest := s.shares asked l.ctx (s.cores.map Prod.fst) ⟨0, 0, s.lackBlocks l - freed⟩
  let all := asked ++ rest.1
  if here.all (fun r => r.2.none_) && rest.2.none_ then
    some (((all.map fun x => (x.1, x.2.1)).eraseDups).map fun x => (x.1, x.2, askedOf all x.1 x.2))
  else none

/-- R380: a new gang that lacks only what elastic workgroups of its context hold above their minimum. -/
def State.placeShrink (s : State) (l : Launch) : Option Placing :=
  if (s.ctx l.ctx).stackn = 0 then none
  else (leastBy (s.placeKey l) ((s.placesOf l.record.gang).filter fun cs =>
    cs.all (s.canTakeBut l) && ((s.sharesFor l cs).any fun g => !g.isEmpty))).map fun cs => ⟨l.launch, none, cs, [], 0, [], 0, some s.now, 0⟩

/-- R372: the waiting gangs of a launch, in order: those pre-empted, then the next that has not started. -/
def State.waitingOf (s : State) (l : Launch) : List Waiting :=
  let saved := (s.gangs.filter fun p => decide (p.2.launch = l.launch) && p.2.saved).map fun p => p.2
  ((sortBy (fun g : Gang => g.index) saved).map fun g => ⟨l, some g⟩)
    ++ if !l.dead && l.holds.isEmpty && decide (l.nextGang < l.record.gangs) then [⟨l, none⟩] else []

/-- R372: the launches of a context in a class that the distributor may serve, in the order of their admission: a dispatch in the place of
its consumer, by its number. -/
def State.serving (s : State) (x k : Nat) : List Launch :=
  sortBy (fun l : Launch => l.parent.getD l.launch)
    ((s.launches.filter fun p => decide (p.2.ctx = x ∧ p.2.record.cls = k ∧ (p.2.record.inq = 0 ∨ p.2.parent.isSome = true))).map Prod.snd)

/-- R372: a place for a waiting gang; `shrink` tells whether a shrink request may come before pre-emption (R380). -/
def State.placeFor (s : State) (shrink : Bool) (w : Waiting) : Option Placing :=
  match w.gang with
  | some g => s.placeSaved w.l g
  | none => match s.placeFree w.l fun _ => true with
    | some p => some p
    | none =>
      let forced := s.placeOver w.l
      if forced.isNone && s.hasBlocks w.l then none
      else match if shrink then s.placeShrink w.l else none with
        | some q => some q
        | none => forced

/-- R372 step 3, R377: a gang of a memory-light launch, pre-empted or new, that takes the place of another on a crowded die, without pre-empting. -/
def State.lighter (s : State) (ls : List Launch) (p : Placing) : Option Placing :=
  match s.launches.look p.launch with
  | none => none
  | some l =>
    let d := dieOf (p.cores.headD 0)
    let there (q : Placing) : Bool := decide (dieOf (q.cores.headD 0) = d) && q.clear.isEmpty
    if l.record.mlight || !s.crowded (p.cores.headD 0) then none
    else ((ls.filter fun y => y.record.mlight).flatMap s.waitingOf).findSome? fun w => match w.gang with
      | some g => (s.placeSaved w.l g).filter there
      | none => s.placeFree w.l fun c => decide (dieOf c = d)

/-- R372: the distributor's choice. -/
def State.chooseGang (s : State) (shrink : Bool) : Option Placing :=
  [3, 2, 1, 0].findSome? fun k =>
    let xs := (s.ctxs.filter fun p => p.2.live && decide (s.share p.1 k ≠ 0)
      && !(s.regs.killing && decide (s.regs.killCtx = p.1))).map Prod.fst
    (sortBy (fun x => s.vt x k * 64 + x) xs).findSome? fun x =>
      let ls := s.serving x k
      match (ls.flatMap s.waitingOf).findSome? (s.placeFor shrink) with
      | none => none
      | some p => some ((s.lighter ls p).getD p)

/-! ### The start of a gang (R38, R174, R288, R342, R363) -/

/-- The coordinates of a launch's gang along levels 3 to 5: level 3 fastest; a dispatch has its number (R370). -/
def Launch.coords (l : Launch) (i : Nat) : List Nat :=
  let e (n : Nat) : Nat := l.record.ext.getD n 1
  match l.parent with
  | some _ => [l.dnum % 2 ^ l.record.widths.getD 3 0, 0, 0]
  | none => [i % e 0, i / e 0 % e 1, i / e 0 / e 1 % e 2]

/-- R38, R342, R363: a workgroup of a launch starts on a core. -/
def State.startWg (s : State) (l : Launch) (gang rank index c : Nat) : State :=
  let r := l.record
  let x := l.ctx
  let same := decide ((s.core c).wctx = some x)
  match s.partition c x (r.lstore * 256) with
  | none => s
  | some _ =>
    let s := s.takeHalves c x
    let base := (s.partition c x (r.lstore * 256)).getD 0
    let k := s.core c
    let saved := (s.images.filter fun im => decide (im.ctx = x ∧ im.core = c)).flatMap fun im => im.wgs.keys
    let slot := (lowestFree 64 (k.wgs.keys ++ saved)).getD 0
    match k.resident x r.prog (s.program x r.prog) with
    | none => s
    | some p =>
      let w : Workgroup :=
        { uid := s.serial, ctx := x, launch := l.launch, gang := gang, rank := rank, cls := r.cls, nregs := 8 * r.regs, base := base,
          size := r.lstore * 256, tiles := k.freeTiles.take r.tiles, accs := k.freeAccs.take r.accs, bars := r.barriers,
          emin := r.emin, emax := r.emax, rbase := p.region * regionParcels, rlen := p.len, entry := r.entry, aentry := r.aentry,
          args := if l.parent.isSome then l.argsAt else r.args, widths := r.widths, coords := l.coords index, quantum := r.quantum,
          started := s.serial, ident := identOf x c slot }
      let k := (k.useProgram p s.serial).l1Invalidate x
      let k : Core :=
        { k with
          ctx := some x
          wctx := some x
          progress := s.clkOf c
          weights := if same then k.weights else []
          perm := if same then k.perm else []
          wgs := k.wgs.put slot w
          accs := w.accs.foldl (fun m a => m.erase a) k.accs
          tiles := w.tiles.foldl (fun m e => m.put e { wg := slot }) k.tiles }
      let k := k.lsWrite ((fromN base (8 * r.barriers)).map fun a => (a, 0))
      let s := State.setCore { s with serial := s.serial + 1 } c k
      let s := if rank = 0 then s.assignSlots l w.ident else s
      iter (fun s => s.startGroup c slot r.entry) r.emin s

/-- A gang starts on its cores. -/
def State.startGang (s : State) (l : Launch) (cs : List Nat) : State :=
  let g : Gang := ⟨s.serial, l.launch, l.nextGang, l.coords l.nextGang, cs, false, s.serial⟩
  let s : State :=
    { s with
      serial := s.serial + 1
      gangs := s.gangs.put g.gang g
      launches := s.launches.put l.launch { l with nextGang := l.nextGang + 1, running := l.running + cs.length } }
  (cs.zipIdx).foldl (fun s p => s.startWg l g.gang p.2 g.index p.1) s

/-! ### GANG_PLACE -/

/-- The steps that a placement still needs, by stage: pre-emption, then backing and halves, then programs, then restore. -/
def State.placeSteps (s : State) (p : Placing) : Nat → List Due
  | 0 =>
    let cs := p.clear.filter fun c => !(s.core c).wgs.isEmpty
    (cs.map fun c => Due.preemptRequest c (((s.core c).ctx).getD 0)) ++ cs.map Due.contextSave ++ cs.map Due.redirectApply
  | 1 =>
    let x := ((s.launches.look p.launch).map fun l => l.ctx).getD 0
    let ims := (s.images.filter fun im => p.images.contains im.serial)
    let out : List Due := if p.shift = 0 then [] else ims.flatMap fun im =>
      ((s.core im.core).slots.filter fun q => decide (q.2.image = some im)).map fun q => Due.imageToBacking im.core q.1
    out ++ p.cores.flatMap fun c => (s.halvesToEvict c x).map fun h => Due.lsHalfEvict c h
  | 2 =>
    match s.launches.look p.launch with
    | none => []
    | some l =>
      if p.gang.isNone then
        (p.cores.filter fun c => ((s.core c).resident l.ctx l.record.prog (s.program l.ctx l.record.prog)).isNone).map fun c =>
          Due.programLoad c l.ctx l.record.prog
      else
        (s.images.filter fun im => p.images.contains im.serial).flatMap fun im =>
          let c := (im.core + p.shift).toNat
          (im.wgs.filterMap fun q => if (s.residentFor c q.2).isSome then none
            else (s.launches.look q.2.launch).map fun y => Due.programLoad c l.ctx y.record.prog).eraseDups
  | 3 =>
    if p.gang.isNone then []
    else
      let x := ((s.launches.look p.launch).map fun l => l.ctx).getD 0
      let cs := if 0 < p.shift then sortBy (fun c => 96 - c) p.cores else sortBy id p.cores
      cs.map fun c => Due.contextRestore c x
  | _ => []

/-- R268, R275, R279: the images of a placement that go to another die: while a value is still to come for one of their groups, and then while a write
that their die's view held by then has not merged, they wait (log 112). -/
def State.leaving (s : State) (p : Placing) : List Image :=
  s.images.filter fun im => p.images.contains im.serial && decide (dieOf (im.core + p.shift).toNat ≠ dieOf im.core)
def State.valuesDue (s : State) (im : Image) : Bool := s.ops.any fun o => im.has o.2.uid && !o.2.performedLanes && (match o.2.kind with
  | .load _ _ _ | .ldx _ _ | .atomic _ _ _ => true
  | _ => false)
def State.writesBehind (s : State) (im : Image) (since : Nat) : Bool :=
  (s.die (dieOf im.core)).pw.any fun w => decide (w.ctx = im.ctx ∧ w.serial < since)

/-- A placement goes on: the steps that it needs come next on the agenda; with none left, the gang starts, or the place is given up. Images that go to
another die wait for what that die has still to merge. -/
def State.advancePlace (s : State) (p : Placing) : State :=
  match ([0, 1, 2, 3].filter fun i => decide (p.stage ≤ i)).find? fun i => !(s.placeSteps p i).isEmpty with
  | some i =>
    let ims := if i = 3 then s.leaving p else []
    if ims.any s.valuesDue || (!ims.isEmpty && decide (p.since = 0)) then
      State.flushCtx { s with serial := s.serial + 1, placing := some { p with stage := 3, since := s.serial + 1 } } ((ims.map fun im => im.ctx).headD 0)
    else if ims.any fun im => s.writesBehind im p.since then { s with placing := some { p with stage := 3 } }
    else State.soon { s with placing := some { p with stage := i + 1 } } (s.placeSteps p i ++ [.gangPlace])
  | none =>
    let s : State := { s with placing := none }
    match p.gang, s.launches.look p.launch with
    | none, some l => if s.hasBlocks l && p.cores.all fun c => s.canTake l c then s.startGang l p.cores else s
    | _, _ => s

/-- R380: every shrink request is withdrawn. -/
def State.withdraw (s : State) : State :=
  let calm (k : Core) : Core := { k with wgs := k.wgs.mapVals fun _ w => { w with shrinkReq := false } }
  { s with cores := s.cores.mapVals fun _ k => if k.wgs.any fun p => p.2.shrinkReq then calm k else k }

/-- A choice becomes the placement at hand. -/
def State.adopt (s : State) (p : Placing) : State :=
  match p.asked, s.launches.look p.launch with
  | some _, some l =>
    State.soon { s with placing := some p } (((s.sharesFor l p.cores).getD []).map fun x => Due.shrinkRequest x.1 x.2.1 x.2.2)
  | _, _ => State.advancePlace { s with placing := some p } p

/-- R372 to R375: GANG_PLACE. -/
def execGangPlace (s : State) : Outcome State Fault Refusal :=
  .next <| match s.placing with
    | none => match s.chooseGang true with
      | some p => s.adopt p
      | none => s
    | some p => match p.asked with
      | none => s.advancePlace p
      | some _ =>
        let s' : State := { s with placing := none }
        match s'.chooseGang true with
        | some q => if q.launch = p.launch ∧ q.gang = p.gang ∧ q.asked.isSome = true then s else s'.withdraw.adopt q
        | none => s'.withdraw

/-- R378: QUANTUM_EXPIRE: pre-emption follows, or the counter starts again. -/
def execQuantumExpire (core wg : Nat) (s : State) : Outcome State Fault Refusal :=
  .next <| match s.wgOf core wg with
    | none => s
    | some w =>
      if w.quantum * 1300 ≤ w.qcount ∧ (w.rank = 0) then
        let again := s.setWg core wg { w with qcount := 0 }
        if s.placing.isSome then s
        else match s.chooseGang true with
          | some p => if p.clear.contains core then s.adopt p else again
          | none => again
      else s

/-- R380: SHRINK_REQUEST. -/
def execShrinkRequest (core wg need : Nat) (s : State) : Outcome State Fault Refusal :=
  .next <| match s.wgOf core wg with
    | none => s
    | some w =>
      if w.emin < w.emax then s.setWg core wg { w with shrinkReq := true, shrinkTarget := max w.emin (s.wgSize core wg - need) } else s

/-- R380: SHRINK_TIMEOUT: with the resources still short after 2600 clk, whole gangs are pre-empted. -/
def execShrinkTimeout (s : State) : Outcome State Fault Refusal :=
  .next <| match s.placing with
    | some p => match p.asked with
      | some t =>
        if t + 2600 ≤ s.now then
          let s := State.withdraw { s with placing := none }
          match s.chooseGang false with
          | some q => s.adopt q
          | none => s
        else s
      | none => s
    | none => s

end Sys2Proof.Machine
end

