-- ==== Sys2Proof/Machine/Context.lean ====
section
/-! DEFINITION. Contexts: kill (R393), creation and the stack aperture (R394, R395), frame assignment (R362 to R364), and communicators
(R398 to R400). -/

namespace Sys2Proof.Machine

open Host (Outcome)

/-! ### Kill (R393) -/

/-- R393 step 3: collectives and exchanges of a context end, with all their members. -/
def State.dropCollectives (s : State) (x : Nat) : State :=
  let sets := s.postSets.filter fun p => decide (p.2.ctx ≠ x)
  { s with
    members := s.members.filter fun p => decide (p.2.ctx ≠ x)
    matches_ := s.matches_.filter fun y => decide (y.ctx ≠ x)
    spanSeen := s.spanSeen.filter fun p => decide (p.1 / 65536 ≠ x)
    postSets := sets
    postQ := s.postQ.filter fun q => decide (q.ctx ≠ x)
    xmsgs := s.xmsgs.filter fun y => (SMap.look sets (y.set_ * 2 + y.hub)).isSome }

/-- R393 step 2: saved images of a context are released. R298: what their groups' handlers have still to report is posted. -/
def State.dropImages (s : State) (x : Nat) : State :=
  let s := (s.images.filter fun im => decide (im.ctx = x)).foldl (fun s im => im.groups.foldl (fun s g => s.postReport im.core g.2) s) s
  let free (y : SaveSlot) : SaveSlot := if (y.image.map fun im => decide (im.ctx = x)).getD false then ⟨none, false⟩ else y
  { s with
    cores := s.cores.mapVals fun _ k => if k.slots.isEmpty then k else { k with slots := k.slots.mapVals fun _ y => free y }
    backing := s.backing.filter fun im => decide (im.ctx ≠ x) }

/-- R393 steps 1 to 3. -/
def State.beginKill (s : State) (x : Nat) : State :=
  let s : State := { s with regs := { s.regs with killCtx := x, killing := true } }
  let mine (id : Nat) : Bool := ((s.launches.look id).map fun l => decide (l.ctx = x)).getD false
  let s := if (s.placing.map fun p => mine p.launch).getD false then State.withdraw { s with placing := none } else s
  let waiting := s.launches.filter fun p => decide (p.2.ctx = x ∧ p.2.nextGang = 0)
  let s := waiting.foldl (fun s p => (s.writeStatus x p.2.record 3 p.2.cause.toNat 0 0).endLaunch p.1) s
  let wgs := s.cores.flatMap fun p => (p.2.wgs.filter fun w => w.2.ctx = x).map fun w => (p.1, w.1)
  let s := wgs.foldl (fun s p => s.dropWg p.1 p.2) s
  let s := s.abortCopies fun o => decide (o.ctx = x)
  let s := (s.dropImages x).dropCollectives x
  let s := s.setCtx x { s.ctx x with blocks := [] }
  { s with
    gangs := s.gangs.filter fun p => !mine p.2.launch
    queues := s.queues.mapVals fun _ q => { q with pushers := q.pushers.filter fun p => (s.getUid p.1).isSome }
    cores := s.cores.mapVals fun _ k => if k.ctx = some x then { k with halted := false, redirect := [] } else k }

/-- R393: CTX_KILL: a write of ctx.kill. -/
def execCtxKill (val : BitVec 32) (s : State) : Outcome State Fault Refusal :=
  .next (if s.regs.killing || !val.getLsbD 31 then s else s.beginKill (val.toNat % 64))

/-- R391, R393: the outstanding operations of a killed context: their completions are dropped. -/
def State.dropOps (s : State) (x : Nat) : State :=
  let gone := s.ops.filter fun p => decide (p.2.ctx = x)
  let comes (o : Op) : Bool := match o.kind with
    | .load _ _ _ | .ldx _ _ | .atomic _ true _ | .mappg _ | .tlbinv _ | .mperm | .qpush _ | .qpop _ => true
    | _ => false
  let s : State := { s with ops := s.ops.filter fun p => decide (p.2.ctx ≠ x) }
  (gone.filter fun p => comes p.2).foldl (fun s p => s.dropCompletion p.2.core x) s

/-- R393 step 5: what a core holds of a context is invalidated, freed and zeroed. -/
def Core.forget (k : Core) (x : Nat) : Core :=
  let mine := k.halfList.filter fun h => decide (k.halfOwner h = some x)
  let gone := (k.programs.filter fun r => decide (r.ctx = x)).flatMap Resident.regions
  let own (q : Sequencer) : Sequencer := if q.ctx = x then {} else q
  { (k.l1Invalidate x).setQueue (k.mqueue.filter fun o => decide (o.ctx ≠ x)) with
    mseq := own k.mseq
    cseq := own k.cseq
    ctx := if k.ctx = some x then none else k.ctx
    tlb := k.tlb.filter fun e => decide (e.ctx ≠ x)
    faults := k.faults.filter fun w => decide (w.ctx ≠ x)
    arrivals := k.arrivals.filter fun a => decide (a.ctx ≠ x)
    programs := k.programs.filter fun r => decide (r.ctx ≠ x)
    pstore := k.pstore.filter fun p => !gone.contains (p.1 / regionParcels)
    slots := k.slots.mapVals fun _ y => if y.image.isNone then {} else y
    ls := k.ls.filter fun p => !mine.any fun h => inHalf h p.1
    halves := mine.foldl (fun m h => m.put h {}) k.halves }

/-- R346: the reset of a context's partition of an L2: lines of rank 2 or 3 in its ways come down to rank 1. -/
def L2Line.lower (mask : BitVec 16) (l : L2Line) : L2Line := if mask.getLsbD l.way ∧ 2 ≤ l.rank then { l with rank := 1 } else l

/-- R393 step 5, R345, R346, R363: what a die holds of a context; R354: walks that wait take the walkers that become free. -/
def Die.forget (d : Die) (x : Nat) : Die :=
  Die.fillWalkers { d with
    lines := d.lines.mapVals fun _ l => l.lower (d.ways.get 0 x)
    tlb := d.tlb.filter fun e => decide (e.ctx ≠ x)
    walks := d.walks.filter fun p => decide (p.2.ctx ≠ x)
    walkQueue := d.walkQueue.filter fun w => decide (w.ctx ≠ x)
    ways := d.ways.erase x }

/-- R393 steps 5 and 6, once every write of the context is performed. -/
def State.finishKill (s : State) (x : Nat) : State :=
  let s := s.dropOps x
  let s : State :=
    { s with
      cores := s.cores.mapVals fun _ k => k.forget x
      dies := s.dies.mapVals fun _ d => d.forget x
      windows := s.windows.mapVals fun _ w => if w.ctx = x then { w with en := false, busy := false, staged := [], drains := [] } else w }
  let ls := s.launches.filter fun p => decide (p.2.ctx = x)
  let s := ls.foldl (fun s p => (s.writeStatus x p.2.record 3 p.2.cause.toNat 0 p.2.ended).endLaunch p.1) s
  { s with
    tags := s.tags.filter fun p => !(decide (p.2.toNat % 64 = x) && decide (p.2.toNat / 64 % 2 = 1))
    ctxs := s.ctxs.erase x
    regs := { s.regs with killing := false } }

/-- R393: the end of the running kill, once every write of the context already issued is performed and every accepted publish has
drained. -/
def State.killStep (s : State) : State :=
  let x := s.regs.killCtx
  let s := s.flushCtx x
  if !s.ctxWritesDone x s.serial || s.windows.any fun p => decide (p.2.ctx = x) && !p.2.drains.isEmpty then s
  else s.finishKill x

/-! ### Creation (R394, R395) -/

/-- R337: whether a run of bytes lies in device memory. -/
def State.inDevice (s : State) (dpa n : Nat) : Bool :=
  decide (dpa / 2 ^ 44 ≤ 8) && decide (dpa % 2 ^ 44 + n ≤ s.spaceSize (decide (dpa / 2 ^ 44 = 8)))

def State.frameTagged (s : State) (dpa : Nat) : Bool := decide ((s.tags.get 0 (dpa / 65536)).toNat / 64 % 2 = 1)

/-- R395: whether the fields of a quota record are within their limits. -/
def State.quotaOk (s : State) (pa : Nat) : Bool :=
  let f (at_ n : Nat) : Nat := s.rdM (pa + at_) n
  let root := f 0 8
  decide (f 0x08 4 % 256 = 0 ∧ f 0x08 4 ≤ 65536) && decide (1 ≤ f 0x5E 2 ∧ f 0x5E 2 ≤ 48) && decide (f 0x5C 1 ≤ 96)
    && decide (f 0x5D 1 ≤ 1) && (fromN 0x6C 0x94).all (fun a => decide (f a 1 = 0))
    && (decide (root = 0) || (leafBit root 0 && !leafBit root 1 && !s.malformed root 0))
    && decide (((s.ctxs.filter fun p => p.2.live).map fun p => s.resv3 p.1).foldl (· + ·) 0 + f 0x5C 1 ≤ 96)

/-- R395: the end of an operation of the context registers. -/
def State.cxDone (s : State) (r : Nat) : State := { s with regs := { s.regs with cxBusy := false, cxResult := r } }

/-- R345: the way masks of a quota record take effect on every die; ways that serve a new context are cleaned first. -/
def State.loadWays (s : State) (x pa : Nat) : State :=
  (List.range 8).foldl (fun s d =>
    let mask := BitVec.ofNat 16 (s.rdM (pa + 0x10 + 2 * d) 2)
    let k := s.die d
    let old := s.wayMask d x
    let new := (List.range 16).filter fun w => mask.getLsbD w && !old.getLsbD w
    if mask = old then s
    else s.setDie d { k with
      ways := k.ways.set 0 x mask
      cleaning := k.cleaning ++ (new.filter fun w => !k.cleaning.contains (w, x)).map fun w => (w, x) }) s

/-- R395: CX_CREATE. -/
def execCxCreate (s : State) : Outcome State Fault Refusal :=
  .next <|
    let g := s.regs
    let pa := g.cxQuota.toNat
    let x := g.cxCtx
    if !g.cxBusy || decide (g.cxOp ≠ 0) then s
    else if (s.ctx x).live || (g.killing && decide (g.killCtx = x)) then s.cxDone 1
    else if pa % 256 ≠ 0 ∨ s.inDevice pa 256 = false ∨ s.frameTagged pa = true then s.cxDone 2
    else if !s.quotaOk pa then s.cxDone 3
    else ((({ s with regs := { g with qHeld := true } }.setCtx x { live := true, quota := pa }).loadWays x pa).cxDone 0)

/-- Whether a context has a workgroup, running or saved. -/
def State.hasWork (s : State) (x : Nat) : Bool :=
  s.cores.any (fun p => p.2.wgs.any fun w => w.2.ctx = x) || s.images.any fun im => im.ctx = x

/-- R174, R395: CX_LOAD_STACK. -/
def execCxLoadStack (s : State) : Outcome State Fault Refusal :=
  .next <|
    let g := s.regs
    let x := g.cxCtx
    let base := s.stackB x
    let n := s.quota x 0x68 4
    let bytes := n * s.blockSize x
    if !g.cxBusy || decide (g.cxOp ≠ 1) then s
    else if !(s.ctx x).live || s.hasWork x then s.cxDone 1
    else if base % 65536 ≠ 0 then s.cxDone 3
    else if (List.range (ceilDiv bytes 65536)).any fun i => !s.tagNames (base + i * 65536) x 0 then s.cxDone 4
    else (s.setCtx x { s.ctx x with stackn := n, blocks := [] }).cxDone 0

/-! ### Frame assignment (R362, R364) -/

/-- R364: the bytes of a region by its size code. -/
def regionBytes (size : Nat) : Nat := if size = 0 then 2 ^ 16 else if size = 1 then 2 ^ 25 else 2 ^ 34

def State.faDone (s : State) (r : Nat) : State := { s with regs := { s.regs with faBusy := false, faZeroing := false, faResult := r } }

/-- The owner tags of a region, as one value. -/
def State.regionTags (s : State) (dpa size : Nat) (f : Option (BitVec 9) → Bool) : Bool :=
  let a := dpa / 65536
  let n := regionBytes size / 65536
  let l := s.tags.filter fun p => decide (a ≤ p.1 ∧ p.1 < a + n)
  l.all (fun p => f (some p.2)) && (decide (l.length = n) || f none)

/-- R362: writes one tag into every frame of a region. -/
def State.setRegion (s : State) (dpa size : Nat) (t : BitVec 9) : State :=
  let a := dpa / 65536
  let n := regionBytes size / 65536
  { s with tags := (s.tags.filter fun p => decide (p.1 < a)) ++ (if t = 0 then [] else (fromN a n).map fun i => (i, t))
      ++ s.tags.filter fun p => decide (a + n ≤ p.1) }

/-- R364: the first of the checks that a command for a region shares. -/
def State.faCheck (s : State) : Option Nat :=
  let g := s.regs
  let dpa := g.faDpa.toNat
  if g.faSize = 3 then some 5
  else if dpa % regionBytes g.faSize ≠ 0 ∨ s.inDevice dpa (regionBytes g.faSize) = false then some 1
  else none

/-- R326, R328: the sectors of a region that the port agent or the host holds. -/
def State.hostHeld (s : State) (a n : Nat) : List Nat :=
  let inside (sec : Nat) : Bool := decide (a / 64 ≤ sec ∧ sec < (a + n) / 64)
  let lines := s.hostLines.filterMap fun p => if p.2 ≠ 0 ∧ inside p.1 = true then some p.1 else none
  let toks := s.toks.filterMap fun p => if p.1 % 64 = agentId ∧ p.2.tokens ≠ 0 ∧ inside (p.1 / 64) = true then some (p.1 / 64) else none
  (lines ++ toks).eraseDups

/-- R308, R364: the home recalls what the host holds of a region, by BINV to the port agent. -/
def State.recallRegion (s : State) (a n : Nat) : State := (s.hostHeld a n).foldl (fun s x => s.send (blankMsg .binv x homeId agentId)) s

/-- R364: FA_ASSIGN: the checks; then zeroing starts, with the recall of what the host holds. -/
def execFaAssign (s : State) : Outcome State Fault Refusal :=
  .next <|
    let g := s.regs
    if !g.faBusy || g.faRel || g.faZeroing then s
    else match s.faCheck with
      | some r => s.faDone r
      | none =>
        if !s.regionTags g.faDpa.toNat g.faSize (fun t => match t with | some t => decide (t.toNat / 64 % 2 = 0) | none => true) then s.faDone 2
        else if !(s.ctx g.faCtx).live then s.faDone 3
        else State.recallRegion { s with regs := { g with faZeroing := true } } g.faDpa.toNat (regionBytes g.faSize)

/-- R362, R364: FRAME_ZERO_COMPLETE: once the host holds nothing of the region, it reads zero everywhere, and its frames get their tags. -/
def execFrameZeroComplete (s : State) : Outcome State Fault Refusal :=
  .next <|
    let g := s.regs
    if !g.faZeroing || !(s.hostHeld g.faDpa.toNat (regionBytes g.faSize)).isEmpty then s
    else ((s.zeroRange g.faDpa.toNat (regionBytes g.faSize)).setRegion g.faDpa.toNat g.faSize (ownerTag g.faCtx g.faSize)).faDone 0

/-- R364: whether a TLB entry of a context maps a frame of a region. -/
def State.mapsInto (s : State) (e : TlbEntry) (ctx dpa n : Nat) : Bool :=
  let a := s.physOf e 0
  decide (e.ctx = ctx) && decide (a < dpa + n) && decide (dpa < a + pageBytes e.lvl)

/-- R364: FA_RELEASE: the checks; the TLB entries go, the accesses through them are waited for, and the tags are cleared. -/
def execFaRelease (s : State) : Outcome State Fault Refusal :=
  .next <|
    let g := s.regs
    let dpa := g.faDpa.toNat
    let n := regionBytes g.faSize
    let tag := ownerTag g.faCtx g.faSize
    if !g.faBusy || !g.faRel then s
    else match s.faCheck with
      | some r => s.faDone r
      | none =>
        if !(s.ctx g.faCtx).live then s.faDone 3
        else if !s.regionTags dpa g.faSize (fun t => decide (t = some tag)) then s.faDone 4
        else if s.ctxs.any fun p => p.2.live && decide (p.2.stackn ≠ 0)
            && decide (s.stackB p.1 < dpa + n ∧ dpa < s.stackB p.1 + p.2.stackn * s.blockSize p.1) then s.faDone 6
        else
          let keep (e : TlbEntry) : Bool := !s.mapsInto e g.faCtx dpa n
          let s' : State :=
            { s with
              dies := s.dies.mapVals fun _ d => { d with tlb := d.tlb.filter keep }
              cores := s.cores.mapVals fun _ k => { k with tlb := k.tlb.filter keep } }
          let moving := s'.members.any fun p => p.2.exchange && decide (p.2.ctx = g.faCtx ∧ p.2.stage = .running)
          if s'.accessesDone g.faCtx s'.serial && !moving then (s'.setRegion dpa g.faSize 0).faDone 0 else s'

/-! ### Communicators (R398 to R400, R409) -/

def State.commDone (s : State) (r : Nat) : State := { s with regs := { s.regs with commResult := r } }

/-- R409: the entries of a peer route table: first rank, one past the last, port; the port with the reserved bits above it. -/
def routesIn (b : List Byte) : List (Nat × Nat × Nat) :=
  (List.range 16).map fun i => (field b (16 * i) 4, field b (16 * i + 4) 4, field b (16 * i + 8) 8)

/-- R409: the entries that cover at least one rank. -/
def routesOf (l : List (Nat × Nat × Nat)) : List (Nat × Nat × Nat) := l.filter fun r => decide (r.1 < r.2.1)

/-- R409: every entry names a port from 0 to 15, with its reserved bits zero, and the ranges cover every rank outside lo … hi - 1 exactly once. -/
def routesOk (l : List (Nat × Nat × Nat)) (n lo hi : Nat) : Bool :=
  let rs := routesOf l
  let apart (x y : Nat × Nat × Nat) : Bool := decide (x.2.1 ≤ y.1 ∨ y.2.1 ≤ x.1)
  l.all (fun r => decide (r.2.2 < 16))
    && rs.all (fun r => decide (r.2.1 ≤ lo) || (decide (hi ≤ r.1) && decide (r.2.1 ≤ n)))
    && rs.zipIdx.all (fun x => rs.zipIdx.all fun y => decide (x.2 = y.2) || apart x.1 y.1)
    && decide ((rs.map fun r => r.2.1 - r.1).foldl (· + ·) 0 = n - (hi - lo))

/-- R399, R400: whether the fields of a communicator record meet their limits. -/
def commOk (b : List Byte) : Bool :=
  let f (at_ n : Nat) : Nat := field b at_ n
  let kind := f 2 1 % 2
  let span := f 2 1 / 2 % 2
  let n := f 4 4
  let grps := (List.range n).map fun j => f 0x10 4 / 8 ^ j % 8
  decide (f 2 1 < 4 ∧ f 3 1 = 0 ∧ f 0x14 4 = 0 ∧ 2 ≤ n)
    && (if kind = 0 then decide (n ≤ 65536 ∧ f 0x10 4 = 0) else decide (n ≤ 8 ∧ span = 0) && decide (grps.eraseDups.length = n))
    && (if span = 0 then decide (f 8 4 = 0 ∧ f 0x0C 4 = n) else decide (f 8 4 < f 0x0C 4 ∧ f 0x0C 4 ≤ n))
    && decide (f 0x18 8 % 4 = 0) && (decide (kind = 0 ∧ span = 1) || decide (f 0x20 8 = 0))
    && (decide (kind = 0) || decide (f 0x28 8 % 65536 = 0 ∧ f 0x38 8 % 65536 = 0))

/-- What the hub may do with the addresses of a record. -/
def both : Want := ⟨true, true, false, false⟩

/-- R400: opens a communicator from its record. DESIGN CHOICE (log 118): R399 has the record in device memory and R398 has no result of its own for one on a
host page; such a record is invalid (2). -/
def State.openComm (s : State) (x va : Nat) : State :=
  let r := s.engineRes x va reading
  if s.rangeKinds x va 64 reading ≠ [] then s.commDone 1
  else
    let b := (s.rangePas x va 64 reading).map s.merged
    let f (at_ n : Nat) : Nat := field b at_ n
    let kind := f 2 1 % 2
    let span := decide (f 2 1 / 2 % 2 = 1)
    let lo := f 8 4
    let hi := f 0x0C 4
    let num := f 0 2
    let seqva := f 0x18 8
    let routeva := f 0x20 8
    let ranges : List (Nat × Nat) := [(seqva, 4 * (hi - lo))] ++ (if span then [(routeva, 256)] else [])
      ++ (if kind = 1 then [(f 0x28 8, 65536 * f 0x30 4), (f 0x38 8, 65536 * f 0x34 4)] else [])
    if leafBit r.leaf 7 || !commOk b || ranges.any (fun p => decide (s.rangeKinds x p.1 p.2 both ≠ [])) then s.commDone 2
    else
      let routes := if span then routesIn ((s.rangePas x routeva 256 reading).map s.merged) else []
      if span && !routesOk routes (f 4 4) lo hi then s.commDone 2
      else if ((s.ctx x).comms.look num).isSome then s.commDone 3
      else if 256 ≤ (s.ctx x).comms.length then s.commDone 4
      else
        let cm : Comm :=
          { kind := kind, span := span, n := f 4 4, lo := lo, hi := hi, grp := f 0x10 4, seqva := BitVec.ofNat 64 seqva, routes := routesOf routes,
            sbase := BitVec.ofNat 64 (f 0x28 8), slen := f 0x30 4, rlen := f 0x34 4, rbase := BitVec.ofNat 64 (f 0x38 8) }
        let s := (s.touchRange x va 64 reading).touchRange x seqva (4 * (hi - lo)) writing
        let s := s.hwWrite ((s.rangePas x seqva (4 * (hi - lo)) writing).map fun a => (a, 0))
        (s.setCtx x { s.ctx x with comms := (s.ctx x).comms.put num cm }).commDone 0

/-- R398: COMM_OPEN: a write of comm.open. DESIGN CHOICE (log 119): R398 lists no result for a context that is not live; its record counts as unreadable
(1). -/
def execCommOpen (val : BitVec 64) (s : State) : Outcome State Fault Refusal :=
  .next <|
    if s.regs.commBusy then s
    else
      let s : State := { s with regs := { s.regs with commOpen := val } }
      let x := val.toNat % 64
      if (s.ctx x).live then s.openComm x (val.toNat / 64 * 64) else s.commDone 1

/-- R398, R400: COMM_CLOSE: a write of comm.close. A member that has failed its checks has joined nothing. -/
def execCommClose (val : BitVec 64) (s : State) : Outcome State Fault Refusal :=
  .next <|
    let s : State := { s with regs := { s.regs with commClose := val } }
    let x := val.toNat % 64
    let n := val.toNat / 64 % 65536
    let joined (y : Member) : Bool := decide (y.ctx = x ∧ y.comm = n) && match y.stage with
      | .accepted | .checked => false
      | .joined | .started | .running | .ready => !y.record.isEmpty
    if ((s.ctx x).comms.look n).isNone then s.commDone 6
    else if s.members.any fun p => joined p.2 then s.commDone 5
    else (s.setCtx x { s.ctx x with comms := (s.ctx x).comms.erase n }).commDone 0

end Sys2Proof.Machine
end

