-- ==== Sys2Proof/Machine/Peer.lean ====
section
/-! DEFINITION. Peer ports (R440 to R446): what arrives on them, rollovers, training and loss. An event gives the header of the flit that has
arrived as the word of R441 (log 63); its bit 128, or `ok`, says that the FEC has corrected the flit and its tag has verified. -/

namespace Sys2Proof.Machine

open Host (Outcome)

/-- R446: the contexts that have a collective in flight over a port, with the cores of their members. -/
def State.overPort (s : State) (p : Nat) : List (Nat × Nat) :=
  let hit := s.matches_.filter fun x => (s.commOf x.ctx x.comm).any fun c => c.span && c.routes.any fun r => decide (r.2.2 = p)
  ((hit.flatMap fun x => (s.joined x).map fun y => (y.core, y.ctx))).eraseDups

/-- R446: a port is lost: 0xE7 in every context with a collective in flight over it, and a link event. -/
def State.losePort (s : State) (p lanes_ : Nat) : State :=
  let x := s.port p
  if !x.up then s
  else
    let s := s.setPort p { en := x.en, lost := true, replays := x.replays, out := x.out, received := x.received }
    (State.stopEach (s.overPort p) 0xE7 s).linkEvent 0 p lanes_

/-- R442: FLIT_DATA: a data flit, or one of a type that is not used. -/
def execFlitData (port seq kidx : Nat) (ok : Bool) (ack : Nat) (s : State) : Outcome State Fault Refusal :=
  let h := headerOf ack
  .next (s.flitArrives port { h with seq := seq, kidx := kidx, typ := if 5 ≤ h.typ then h.typ else 1 } ok id)

/-- R442: FLIT_IDLE. -/
def execFlitIdle (port ack : Nat) (s : State) : Outcome State Fault Refusal :=
  .next (s.flitArrives port { headerOf ack with typ := 0 } (decide (ack / 2 ^ 128 % 2 = 1)) id)

/-- R442: what is kept after the flit that a NAK names goes again, unchanged; a flit replayed eight times in a row loses the port. -/
def State.replay (s : State) (p good : Nat) : State :=
  let x := s.port p
  let again (f : Flit) : Bool := !covered good f.head.seq
  let s := s.setPort p
    { x with
      buffer := x.buffer.map fun f => if again f then { f with replays := f.replays + 1 } else f
      out := x.out ++ x.buffer.filter again
      replays := min (x.replays + 1) 65535 }
  if (s.port p).buffer.any fun f => decide (8 ≤ f.replays) then s.losePort p 0 else s

/-- R442: FLIT_NAK. -/
def execFlitNak (port ack : Nat) (s : State) : Outcome State Fault Refusal :=
  let h := headerOf ack
  .next (s.flitArrives port { h with typ := 2 } (decide (ack / 2 ^ 128 % 2 = 1)) fun s => s.replay port h.ack)

/-- R444 step 4: FLIT_KEY_RETIRE: `kidx` is the index that the flit names. -/
def execFlitKeyRetire (port seq kidx : Nat) (ok : Bool) (ack : Nat) (s : State) : Outcome State Fault Refusal :=
  let drop (s : State) : State := let x := s.port port; s.setPort port { x with rxKeys := x.rxKeys.erase kidx }
  .next (s.flitArrives port { headerOf ack with seq := seq, typ := 3 } ok drop)

/-- R443: FLIT_KEY_EXCHANGE: the 256 bytes of the flit; with another number of bytes the FEC has not corrected it. -/
def execFlitKeyExchange (port : Nat) (bytes : List Byte) (s : State) : Outcome State Fault Refusal :=
  let h := headerOf (ofBytes (bytes.take 16))
  .next (s.flitArrives port { h with typ := 4 } (decide (bytes.length = 256)) fun s => s.exchangeStep port ((bytes.drop 16).take 224))

/-- R443: KEY_COUNTER_LIMIT. -/
def execKeyCounterLimit (port : Nat) (s : State) : Outcome State Fault Refusal :=
  .next (if 2 ^ 47 ≤ (s.port port).ctr then s.rollPort port else s)

/-- R443, R445: PP_ROLL: a write of pp.ctl.roll. -/
def execPpRoll (port : Nat) (s : State) : Outcome State Fault Refusal := .next (s.rollPort port)

/-- R445, R446: PP_ENABLE: pp.ctl.en from 0 to 1 starts training. -/
def execPpEnable (port : Nat) (s : State) : Outcome State Fault Refusal :=
  let x := s.port port
  .next (if x.en then s else s.setPort port { x with en := true, training := true, lost := false })

/-- R445, R446: pp.ctl.en to 0. DESIGN CHOICE (log 122): a port that carries flits is lost by it. -/
def State.disablePort (s : State) (p : Nat) : State :=
  let s := s.losePort p 0
  s.setPort p { s.port p with en := false, training := false }

/-- R445: PEER_PORT_TRAINED: the training that an enabling has started ends: the port carries flits, and the key exchange begins. -/
def execPeerPortTrained (port : Nat) (s : State) : Outcome State Fault Refusal :=
  let x := s.port port
  .next <|
    if !x.en || !x.training then s
    else
      let y : Port := { en := true, up := true, keyRun := .first, heard := s.now, replays := x.replays, waiting := x.waiting, out := x.out, received := x.received }
      (s.setPort port y).exchangeFlit port

/-- R442: PEER_SILENCE_TIMEOUT: no flit has arrived for 2600 clk. -/
def execPeerSilenceTimeout (port : Nat) (s : State) : Outcome State Fault Refusal :=
  .next (if (s.port port).heard + 2600 ≤ s.now then s.losePort port 0 else s)

/-- R440, R442: PEER_LANE_LOSS: one of the four lanes. -/
def execPeerLaneLoss (port lane : Nat) (s : State) : Outcome State Fault Refusal :=
  .next (if lane < 4 then s.losePort port (2 ^ lane) else s)

end Sys2Proof.Machine
end

