-- ==== Sys2Proof/Machine/Boot.lean ====
section
/-! DEFINITION. Trust, boot and reset: bundle verification (R448, R449), measurements (R451), Survey's reach and its placement writes (R336, R450),
the IDE keys (R435), and cold and warm reset (R456, R457). -/

namespace Sys2Proof.Machine

open Host (Outcome)

/-! ### The firmware bundle (R448, R449) -/

/-- Bytes of the staging area, which has 8 MiB. -/
def Regs.staged (g : Regs) (at_ n : Nat) : List Byte := (fromN at_ (min n (2 ^ 23))).map fun a => g.staging.get 0 a
def Regs.stagedN (g : Regs) (at_ n : Nat) : Nat := ofBytes (g.staged at_ n)

/-- R448: the bytes of section `i`, and its kind. -/
def Regs.section_ (g : Regs) (i : Nat) : List Byte := g.staged (g.stagedN (0x10 + 16 * i) 4) (g.stagedN (0x14 + 16 * i) 4)
def Regs.kindOf (g : Regs) (i : Nat) : Nat := g.stagedN (0x18 + 16 * i) 4

/-- R447: the security version: the number of 1 bits. -/
def version (x : BitVec 64) : Nat := ((List.range 64).filter fun i => x.getLsbD i).length

/-- R447: the digest of a signing key's slot. -/
def Regs.vkey (g : Regs) (k : Nat) : List Byte := toBytes 64 (g.otpVkey.toNat / 2 ^ (512 * k))

/-- R449: the number of the first check that the bundle fails. -/
def Regs.bundleFails (g : Regs) : Option Nat :=
  let kslot := g.stagedN 8 1
  let digest := g.staged 0x100 64
  let vpub := g.staged 0x140 1793
  let sections := (List.range 3).flatMap g.section_
  if g.stagedN 0 4 ≠ 0x53555256 then some 1
  else if 3 < kslot ∨ Config.shake256 64 vpub ≠ g.vkey kslot then some 2
  else if g.otpRevoked.getLsbD kslot then some 3
  else if Config.shake256 64 (g.staged 0 0x100 ++ sections) ≠ digest then some 4
  else if !Config.falconVerify vpub digest (g.staged 0x850 (g.stagedN 0x848 2)) then some 5
  else if g.stagedN 4 4 < version g.otpSecver then some 6
  else none

/-- R449: fuses the lowest bits that are still 0 until the count is reached. -/
def raiseTo (n : Nat) (x : BitVec 64) : BitVec 64 :=
  (List.range 64).foldl (fun x i => if version x < n ∧ x.getLsbD i = false then x ||| (1 <<< i) else x) x

/-- R451: the measurement slots of a bundle that is accepted. -/
def Regs.measured (g : Regs) : SMap (List Byte) :=
  let digest (b : List Byte) : List Byte := Config.shake256 64 b
  [(0, digest Config.datumRom), (1, digest (g.section_ 0)), (2, digest (g.section_ 1)), (3, digest (g.section_ 2)),
   (4, digest (toBytes 8 g.otpSecver.toNat ++ toBytes 1 g.otpRevoked.toNat ++ toBytes 1 (g.stagedN 8 1))),
   (5, digest []), (6, List.replicate 64 0), (7, List.replicate 64 0)]

/-- R456 step 4: MOD_BOOT: the length of the staged bundle; verification starts. -/
def execModBoot (len : BitVec 32) (s : State) : Outcome State Fault Refusal :=
  .next (if s.regs.bootStep = 4 then { s with regs := { s.regs with bootLen := len, bootStep := 5 } } else s)

/-- R456 step 6: the supervisor image in every program store. -/
def State.loadSupervisor (s : State) (img : List Parcel) : State :=
  (List.range 96).foldl (fun s c => s.setCore c ((s.core c).putParcels supBase (img.take 8192))) s

/-- R449, R451, R456 step 5: BUNDLE_VERIFY_COMPLETE: the bundle is accepted and measured, or refused. -/
def execBundleVerifyComplete (s : State) : Outcome State Fault Refusal :=
  .next <|
    let g := s.regs
    if g.bootStep ≠ 5 then s
    else match g.bundleFails with
      | some n => { s with regs := { g with bootStep := 4, bootFail := n } }
      | none =>
        let g := if g.stagedN 9 1 = 1 then { g with otpSecver := raiseTo (g.stagedN 4 4) g.otpSecver } else g
        { s with regs := { g with bootStep := 6, bootFail := 0, slots := g.measured } }

/-- R456: the steps of the boot that end of themselves: 1, Datum derives the identity key (R447); 2, the UCIe modules train, each or not (R436); 3,
device memory is written zero; 6, the supervisor image is loaded, and Survey starts. -/
def State.bootNext (s : State) : State :=
  let g := s.regs
  match g.bootStep with
  | 1 => { s with regs := { g with bootStep := 2, identity := Config.falconPublic g.otpSeed } }
  | 2 =>
    let up := (List.range 4).filter (Config.ucieTrains s.free)
    { s with free := s.free + 1, regs := { g with bootStep := 3, ucie := up, hostUp := !up.isEmpty } }
  | 3 => { s with mem := s.mem.filter fun p => decide (hostBase ≤ p.1), residues := [], regs := { g with bootStep := 4 } }
  | 6 =>
    let img := ((List.range 3).find? fun i => decide (g.kindOf i = 1)).map g.section_
    State.loadSupervisor { s with regs := { g with bootStep := 7 } } (parcelsOf (img.getD []))
  | _ => s

/-- R456 step 8: Survey sets ready. -/
def Regs.setReady (g : Regs) : Regs := if g.bootStep = 7 then { g with bootStep := 8, ready := true } else g

/-! ### Measurements and Survey (R450, R451) -/

/-- R451: SPDM_GET_MEASUREMENTS: the slots, the algorithm, and a signature over the digest of nonce, slots and response counter. -/
def execSpdmGetMeasurements (nonce : List Byte) (s : State) : Outcome State Fault Refusal :=
  let g := s.regs
  let slots := (List.range 8).flatMap fun i => g.slots.get [] i
  let msg := Config.shake256 64 (nonce ++ slots ++ toBytes 8 g.responses)
  .next { s with regs := { g with
    doe := slots ++ Config.falconSign g.otpSeed msg g.responses
    doeAlg := some .vendorFalcon1024
    responses := g.responses + 1 } }

/-- R336, R351, R451: GAZETTEER_WRITE: groups 0 to 7 name an entry of the home-group map, 8 names Q, which holds from the first
context on (R336). -/
def execGazetteerWrite (group value : Nat) (s : State) : Outcome State Fault Refusal :=
  let g := s.regs
  let ext : SMap (List Byte) := g.slots.put 5 (Config.shake256 64 (g.slots.get [] 5 ++ toBytes 1 value))
  .next <|
    if group < 8 then if value < 8 then { s with regs := { g with gazetteer := g.gazetteer.put group value, slots := ext } } else s
    else if group = 8 ∧ value ≤ 64 ∧ g.qHeld = false then { s with regs := { g with q := value, slots := ext } }
    else s

/-- R450: the resources that Survey has no access to, by their place in the model (log 101): 0 frames with a valid owner tag, 1 save slots, 2 local
store, 3 register files, 4 accumulators, 5 OTP, 6 the identity key, 7 peer-port keys, 8 IDE keys, 9 owner tags otherwise than by their commands; any
other it may reach. -/
def surveyRefused (resource : Nat) : Bool := decide (resource < 10)

/-- R450: an access of Survey's that is refused posts an error record. -/
def State.refuseSurvey (s : State) : State := s.postError ⟨0, 5, 0, 0, 0, false, s.now, 0⟩

/-- R450: SURVEY_ACCESS_REFUSED: an attempt at a resource. -/
def execSurveyAccessRefused (resource : Nat) (s : State) : Outcome State Fault Refusal :=
  .next (if surveyRefused resource then s.refuseSurvey else s)

/-- R395, R450: Survey writes device memory that no context owns, a quota record for one; a frame with a valid owner tag refuses it. -/
def State.surveyWrite (s : State) (dpa : Nat) (bytes : List Byte) : State :=
  let last := dpa + bytes.length - 1
  if bytes = [] then s
  else if !s.inDevice dpa bytes.length || s.frameTagged dpa || s.frameTagged last then s.refuseSurvey
  else s.hwWrite ((fromN dpa bytes.length).zip bytes)

/-- R435: IDE_KM_REQUEST: the DOE mailbox takes a key-management message, which gives a stream its key or takes it away. -/
def execIdeKmRequest (bytes : List Byte) (s : State) : Outcome State Fault Refusal :=
  let g := s.regs
  .next <| match Config.ideAct bytes with
    | none => s
    | some (stream, key) =>
      if 2 ≤ stream then s
      else { s with regs := { g with ideKeys := if key = [] then g.ideKeys.erase stream else g.ideKeys.put stream key } }

/-! ### Reset (R456, R457) -/

/-- R447, R451: what is fused, or kept in read-only memory, outlives every reset. -/
def Regs.fused (g : Regs) : Regs :=
  { otpSeed := g.otpSeed, otpVkey := g.otpVkey, otpRevoked := g.otpRevoked, otpSecver := g.otpSecver, otpSerial := g.otpSerial,
    otpCert := g.otpCert, identCert := g.identCert }

/-- R456: the module after a reset: device memory reads zero, host memory stands; what drives the model goes on. -/
def State.fresh (s : State) (ports : SMap Port) (g : Regs) : State :=
  { agenda := s.agenda, cur := s.cur, lastUnit := s.lastUnit, issued := s.issued, lastDue := s.lastDue, serial := s.serial, free := s.free,
    mem := s.mem.filter fun p => decide (hostBase ≤ p.1), ports := ports, regs := g,
    cores := s.cores.mapVals fun _ k => { stacked := k.stacked } }

/-- R456: COLD_RESET: step 1 begins, and the host link is down until it has trained. -/
def execColdReset (s : State) : Outcome State Fault Refusal := .next (s.fresh [] { s.regs.fused with ucie := [], hostUp := false })

/-- R457: what a warm reset does once every context is killed: it goes on from step 3, with the identity key, the host link and its keys as they are; ports that
are enabled train again. -/
def State.finishReset (s : State) : State :=
  s.fresh (s.ports.mapVals fun _ x => { en := x.en, training := x.en })
    { s.regs.fused with bootStep := 3, identity := s.regs.identity, ideKeys := s.regs.ideKeys, ucie := s.regs.ucie, hostUp := s.regs.hostUp }

def State.liveCtx (s : State) : Option Nat := (s.ctxs.find? fun p => p.2.live).map Prod.fst

/-- R457: the next step of a warm reset, with no kill running. -/
def State.continueReset (s : State) : State :=
  match s.liveCtx with
  | some x => s.beginKill x
  | none => s.finishReset

/-- R457: WARM_RESET: every context is killed, one after another, and then the module continues from step 3 of R456. -/
def execWarmReset (s : State) : Outcome State Fault Refusal :=
  let s : State := { s with regs := { s.regs with resetting := true } }
  .next (if s.regs.killing then s else s.continueReset)

/-- R393: CTX_KILL_COMPLETE, once every write of the context already issued is performed and every accepted publish has drained. -/
def execCtxKillComplete (s : State) : Outcome State Fault Refusal :=
  .next <|
    if !s.regs.killing then s
    else
      let s' := s.killStep
      if s'.regs.killing || !s'.regs.resetting then s' else s'.continueReset

end Sys2Proof.Machine
end

