-- ==== Sys2Proof/Machine/Coherence.lean ====
section
/-! DEFINITION. The steps of token coherence (R308 to R325) and of the host port agent (R326 to R331). A message is consumed by the step
named after it; a step whose message, deadline or answer is not there leaves the state alone. -/

namespace Sys2Proof.Machine

open Host (Outcome)

/-! ### Messages -/

/-- The message of a number and a kind. R310: one older than 2600 clk is delivered no more. -/
def State.msgOf (s : State) (id : Nat) (k : MsgKind) : Option Msg :=
  s.msgs.find? fun m => decide (m.msg = id ∧ m.kind = k ∧ s.now ≤ m.born + 2600)

/-- Consumes a message. -/
def State.consume (s : State) (m : Msg) : State := { s with msgs := s.msgs.filter fun x => decide (x.msg ≠ m.msg) }

def State.nack (s : State) (m : Msg) : State :=
  s.send { blankMsg .nack m.sector m.dst m.src with requester := m.src, attempt := m.attempt, write := m.write }

/-- R324: whether the slice of a die that a sector belongs to is power-gated. -/
def State.gatedAt (s : State) (h sec : Nat) : Bool := decide (h < 8) && (s.die h).gated.contains (sliceOf sec)

/-- R312: the answer table, for a holder that can answer now. R322: a home whose residue fails its parity refuses until it is recreated. -/
def State.answerNow (s : State) (m : Msg) : State :=
  let h := m.dst
  let s := s.roundShadow h m.sector
  let t := s.tok h m.sector
  let act := if h = homeId then (s.persistOf m.sector).active else (s.acts.look (holderKey h m.sector)).map (·.requester)
  if t.tokens = 0 || s.gatedAt h m.sector || (decide (h = homeId) && !(s.residues.get {} m.sector).parityOk) || decide (act ≠ none ∧ act ≠ some m.src) then s.nack m
  else if m.write then s.sendTokens h m.src m.sector t.tokens t.owner t.owner
  else if t.owner then
    if 2 ≤ t.tokens then s.sendTokens h m.src m.sector 1 false true else s.sendTokens h m.src m.sector 1 true true
  else s.nack m

/-- R327, R328: whether the port agent must recall tokens that the host relies on before it can answer. -/
def State.needsRecall (s : State) (m : Msg) : Bool :=
  let st := s.hostLines.get 0 m.sector
  !isHostSec m.sector && decide (st ≠ 0) && (m.write || decide (m.kind ≠ .gets) || decide (2 ≤ st))

/-- R329: whether the port agent must first obtain ownership from the host: RdShared for a GETS, RdOwn for a GETX or an ACT. -/
def State.needsHost (s : State) (m : Msg) : Bool :=
  isHostSec m.sector && decide ((s.tok agentId m.sector).tokens ≠ 0)
    && decide (s.hostLines.get 0 m.sector < (if m.write ∨ m.kind = .act then 2 else 1))

/-- R328, R329, R331: a message waits for the host's answer from now on; for a sector of host memory the agent asks by RdShared or RdOwn. -/
def State.holdForHost (s : State) (m : Msg) : State :=
  let s := if isHostSec m.sector then s.askHost [(if m.write ∨ m.kind = .act then .rdOwn else .rdShared, m.sector)] else s
  { s with agentAnswers := s.agentAnswers ++ [{ m with born := s.now }] }

/-- R331: the host has answered for a sector: the time that copies waited for it is the host's, and does not count. -/
def State.excuse (s : State) (sec : Nat) : State :=
  match leastBy id ((s.agentAnswers.filter fun m => m.sector = sec).map fun m => m.born) with
  | none => s
  | some t =>
    let f (o : CopyOp) : CopyOp :=
      if o.need.contains sec then
        { o with excused := o.excused + (s.now - max t (max o.accepted o.excusedTo)), excusedTo := s.now }
      else o
    { s with cores := s.cores.mapVals fun _ k =>
        if k.loadQ.isEmpty && k.storeQ.isEmpty then k else { k with loadQ := k.loadQ.map f, storeQ := k.storeQ.map f } }

/-- R312, R313, R328: a request is answered now, or held for the home's read or for the host. -/
def State.answer (s : State) (m : Msg) : State :=
  if m.dst = homeId then
    if s.homeReads.get false m.sector then s.answerNow m
    else { s with
      homeReads := if (s.homeReads.look m.sector).isSome then s.homeReads else s.homeReads.put m.sector false
      homeAnswers := s.homeAnswers ++ [m] }
  else if m.dst = agentId ∧ (s.needsRecall m || s.needsHost m) = true then s.holdForHost m
  else s.answerNow m

/-- R312: GETS_MESSAGE. -/
def execGetsMessage (msg : Nat) (s : State) : Outcome State Fault Refusal :=
  .next <| match s.msgOf msg .gets with
    | none => s
    | some m => (s.consume m).answer m

/-- R312: GETX. -/
def execGetx (msg : Nat) (s : State) : Outcome State Fault Refusal :=
  .next <| match s.msgOf msg .getx with
    | none => s
    | some m => (s.consume m).answer m

/-- R313: NACK: the refusal is recorded for its attempt; the last answer to a miss that has ended frees its buffer. -/
def execNack (msg : Nat) (s : State) : Outcome State Fault Refusal :=
  .next <| match s.msgOf msg .nack with
    | none => s
    | some m =>
      let s := s.consume m
      match s.missOf m.dst m.sector with
      | some (id, x) =>
        if x.attempt = m.attempt then { s with misses := s.misses.put id { x with refused := insertAsc m.src x.refused } } else s
      | none => if m.dst < 8 then s.releaseBuffer m.dst m.sector else s

/-! ### The agent's dealings with the host -/

/-- R327: when the host's line becomes shared, the agent returns the owner token and the data to the home. -/
def State.shedOwner (s : State) (sec : Nat) : State :=
  if (s.tok agentId sec).owner then s.sendTokens agentId homeId sec 1 true true else s

/-- The bytes of a sector. -/
def sectorCells (sec : Nat) (bytes : List Byte) : List (Nat × Byte) := (fromN (64 * sec) 64).zip bytes

/-- R318: the agent's own ACT, under which it has still to hand its tokens on. -/
def State.agentActs (s : State) (sec : Nat) : Bool :=
  (s.acts.look (holderKey agentId sec)).any fun a => decide (a.requester = agentId ∧ a.finished = false)

/-- R328: a host write's data goes home by WB, with every token and the owner token; under the agent's own ACT they are handed on instead
(R318). -/
def State.writeHome (s : State) (sec : Nat) (bytes : List Byte) : State :=
  let s := (s.healSectors true (sectorCells sec bytes)).mergeBytes (sectorCells sec bytes)
  let t := s.tok agentId sec
  let s : State := { s with hostLines := s.hostLines.set 0 sec 0, hostWrites := s.hostWrites.erase sec }
  if s.agentActs sec then s.setTok agentId sec { t with dirty := true }
  else
    (s.setTok agentId sec { serial := t.serial }).send
      { blankMsg .wb sec agentId homeId with tokens := 16, owner := true, dirty := true, serial := t.serial }

/-- R328, R329: what the agent does once its tokens have moved: it completes a host read or write, or answers a snoop. -/
def State.agentSettle (s : State) (sec : Nat) : State :=
  let t := s.tok agentId sec
  let s := match s.hostReads.look sec with
    | some 0 => if t.canWrite then { s with hostReads := s.hostReads.erase sec, hostLines := s.hostLines.set 0 sec 2 } else s
    | some 1 =>
      if t.canRead then
        let s := if s.agentActs sec then s else s.shedOwner sec
        if (s.tok agentId sec).tokens = 0 then s.allocMiss agentId sec false 0 0
        else { s with hostReads := s.hostReads.erase sec, hostLines := s.hostLines.set 0 sec 1 }
      else s
    | some _ =>
      if t.canRead then
        ({ s with hostReads := s.hostReads.erase sec, hostLines := s.hostLines.set 0 sec 0 }).sendAll agentId homeId sec
      else s
    | none => s
  let s := match s.hostWrites.look sec with
    | some bytes => if (s.tok agentId sec).canWrite then s.writeHome sec bytes else s
    | none => s
  match s.recalls.find? fun p => p.1 = sec with
  | some (_, inval) =>
    if (s.tok agentId sec).canWrite && ((s.acts.look (holderKey agentId sec)).isNone || s.agentActs sec) then
      { s with
        recalls := s.recalls.filter fun p => decide (p.1 ≠ sec)
        hostLines := s.hostLines.set 0 sec (if inval || decide (s.hostLines.get 0 sec = 0) then 0 else 1) }
    else s
  | none => s

/-- R327: with nothing of a device sector open at it, the agent keeps no token for a host line in I, and no owner token for one in S. -/
def State.agentTidy (s : State) (sec : Nat) : State :=
  let st := s.hostLines.get 0 sec
  if isHostSec sec || (s.hostReads.look sec).isSome || (s.hostWrites.look sec).isSome || (s.missOf agentId sec).isSome
      || (s.agentAnswers.any fun m => decide (m.sector = sec)) || s.agentActs sec then s
  else if st = 0 then s.returnTokens agentId sec
  else if st = 1 then s.shedOwner sec
  else s

/-- After tokens have reached a holder. -/
def State.settleAt (s : State) (h sec : Nat) : State :=
  if h = homeId then s
  else if h = agentId then ((((s.useTokens h sec).agentSettle sec).passTokens h sec)).agentTidy sec
  else (s.useTokens h sec).passTokens h sec

/-- R314, R344: a die's pending writes to a sector merge where it has every token; where no miss collects them, one is allocated. -/
def State.pendingMerge (s : State) (d sec : Nat) : State :=
  if (s.tok d sec).canWrite then s.settleAt d sec
  else match (s.die d).pw.find? fun w => w.sector = sec with
    | some w => s.missFor w.core w.ctx sec true (w.page.map Prod.fst) ((w.page.map Prod.snd).getD 0)
    | none => s

/-- R329: dirty owned data of a sector of host memory that returns to the agent is written to the host with DirtyEvict, which ends the
agent's CXL.cache ownership of it; a line of which the dies still hold tokens stays shared. -/
def State.dirtyEvict (s : State) (sec : Nat) : State :=
  if isHostSec sec then
    { s.askHost [(.dirtyEvict, sec)] with
      hostLines := s.hostLines.set 0 sec (if (s.tok agentId sec).tokens = 16 then 0 else 1)
      toks := s.toks.set (tokDefault agentId sec) (holderKey agentId sec) { s.tok agentId sec with dirty := false } }
  else s

/-- R324: a miss of its own die wakes the slice of a sector. -/
def State.wakeSlice (s : State) (d sec : Nat) : State :=
  s.setDie d { s.die d with gated := (s.die d).gated.filter fun x => decide (x ≠ sliceOf sec) }

/-- R321 step 3, R322: the recreation ends: the home holds every token; a sector whose owned data is lost is poisoned, and 0xE4 stops
the contexts that wait for it; an error record is posted. -/
def State.recreated (s : State) (sec : Nat) (r : Recreate) : State :=
  let serial := if r.parity then (r.old.foldl max 0 + 1) % 16 else r.serial
  let home := homeOf sec
  let s : State := { s with recreates := s.recreates.erase sec }
  let s : State := if home = homeId then { s with residues := s.residues.set {} sec ⟨16, true, serial, true⟩ }
    else s.setTok home sec ⟨16, true, true, false, serial⟩
  let s := if r.parity then
      ((holdersOf sec).filter fun h => decide (h ≠ home)).foldl (fun s h => s.setTok h sec { s.tok h sec with serial := serial }) s
    else s
  let s := if r.gotOwner then s
    else
      let victims := ((s.misses.filter fun p => p.2.sector = sec).map fun p => (p.2.core, p.2.ctx)).eraseDups
      State.stopEach victims 0xE4 { s with poisoned := s.poisoned ++ [sec] }
  let s := s.postError (recreateRecord s sec r)
  if (s.persistOf sec).batch ≠ [] then s.activate sec else s
where
  /-- R459, R460: the error record of a recreation: the sector's DPA and whether it is poisoned. -/
  recreateRecord (s : State) (sec : Nat) (r : Recreate) : ErrorRec :=
    let d := if isHostSec sec then 0 else homeBase sec / 3
    ⟨if r.gotOwner then 0 else 0xE4, 3, d, 0, 0, false, (s.die d).clk, sec * 64 % 2 ^ 48 + if r.gotOwner then 0 else 2 ^ 48⟩

/-- R321: a recreation ends once every awaited holder has answered and the data that one has announced has come. -/
def State.recreateOver (s : State) (sec : Nat) (r : Recreate) : State :=
  if r.awaited = [] ∧ (r.gotOwner ∨ r.due = false) then s.recreated sec r else { s with recreates := s.recreates.put sec r }

/-- R321: the owner token with data reaches the home under the new serial. -/
def State.dataCame (s : State) (m : Msg) : State :=
  match s.recreates.look m.sector with
  | some r => if m.serial = r.serial then s.recreateOver m.sector { r with gotOwner := true } else s
  | none => s

/-- R309, R310, R313: TOK, DATA and WB: tokens arrive, and always sink. R324: a gated slice wakes where a miss of its die waits for them; otherwise
its router sends them on to the home. -/
def State.tokensArrive (s : State) (msg : Nat) (k : MsgKind) : State :=
  match s.msgOf msg k with
  | none => s
  | some m =>
    if s.gatedAt m.dst m.sector && (s.missOf m.dst m.sector).isNone then
      (s.consume m).send { m with kind := if m.owner then .wb else .tok, src := m.dst, dst := homeOf m.sector }
    else
      let s := if s.gatedAt m.dst m.sector then s.wakeSlice m.dst m.sector else s
      let fresh := decide (m.serial = (s.tok m.dst m.sector).serial)
      let s := (s.consume m).absorb m.dst m
      let s := if fresh && m.owner && decide (m.dst = homeOf m.sector) then s.dataCame m else s
      let t := s.tok m.dst m.sector
      let s : State := if fresh && t.owner && t.dirty && m.dirty && decide (m.dst = agentId) then s.dirtyEvict m.sector else s
      s.settleAt m.dst m.sector

/-- R313: TOK. -/
def execTok (msg : Nat) (s : State) : Outcome State Fault Refusal := .next (s.tokensArrive msg .tok)
/-- R305, R313: DATA. -/
def execData (msg : Nat) (s : State) : Outcome State Fault Refusal := .next (s.tokensArrive msg .data)
/-- R315: WB. -/
def execWb (msg : Nat) (s : State) : Outcome State Fault Refusal := .next (s.tokensArrive msg .wb)

/-- R313: HOME_SECTOR_READ: the home's read ends; a residue whose parity fails starts a recreation (R322). -/
def execHomeSectorRead (sector : Nat) (s : State) : Outcome State Fault Refusal :=
  .next <|
    if s.homeReads.look sector = some false then
      let s : State := { s with homeReads := s.homeReads.put sector true }
      let held := s.homeAnswers.filter fun m => m.sector = sector
      let s : State := { s with homeAnswers := s.homeAnswers.filter fun m => decide (m.sector ≠ sector) }
      let s := if (s.residues.get {} sector).parityOk then s else s.recreate sector true
      held.foldl (fun s m => s.answerNow m) s
    else s

/-! ### Attempts and persistent requests (R313, R316 to R319) -/

/-- R316, R329: the persistent table that a sector's requests are recorded in: of its base die, or of the port agent (24). -/
def tableOf (sec : Nat) : Nat := if isHostSec sec then 24 else homeBase sec

/-- R316: the persistent requests of a requester at one table: recorded, running, or on their way. -/
def State.preqsOf (s : State) (h table : Nat) : Nat :=
  let held := (s.persists.filter fun p => p.2.recorded.any (fun r => r.1 = h) || p.2.batch.contains h).map Prod.fst
  let sent := (s.misses.filter fun p => p.2.persistent && decide (p.2.holder = h)).map fun p => p.2.sector
  let ways := (s.msgs.filter fun m => decide (m.kind = .preq ∧ m.src = h)).map fun m => m.sector
  ((held ++ sent ++ ways).eraseDups.filter fun x => decide (tableOf x = table)).length

/-- R313, R316, R317: ATTEMPT_DEADLINE. A failed first attempt is repeated to every holder, and so is a failed second attempt of a
requester that the running batch has served; otherwise a failed second attempt raises a PREQ, unless one of the requester is recorded.
A miss that would raise a seventh PREQ is released (attempt 0), and allocated again once one of the six is done. -/
def execAttemptDeadline (miss : Nat) (s : State) : Outcome State Fault Refusal :=
  .next <| match s.misses.look miss with
    | none => s
    | some m =>
      if s.needMet m || m.persistent || decide (s.now < m.started + 1300) then s
      else
        let p := s.persistOf m.sector
        let known := (p.recorded.any fun r => decide (r.1 = m.holder)) || p.batch.contains m.holder
        let full := !known && decide (6 ≤ s.preqsOf m.holder (tableOf m.sector))
        let put (m : Miss) : State := { s with misses := s.misses.put miss m }
        if m.attempt = 0 then
          if full then s
          else
            let m := { m with attempt := 1, started := s.now, refused := [] }
            (put m).firstAttempt m
        else if m.attempt = 1 ∨ (p.batch ≠ [] ∧ p.served.contains m.holder) then
          let m := { m with attempt := m.attempt + 1, started := s.now, refused := [] }
          (put m).request m ((holdersOf m.sector).filter fun h => decide (h ≠ m.holder))
        else if full then put { m with attempt := 0 }
        else if known then put { m with persistent := true }
        else (put { m with persistent := true }).send { blankMsg .preq m.sector m.holder (homeOf m.sector) with write := m.write }

/-- R316: a persistent request is recorded, and a batch formed when none runs. -/
def State.record (s : State) (sec h : Nat) (write : Bool) : State :=
  let p := s.persistOf sec
  let s : State := if p.recorded.any fun r => r.1 = h then s
    else { s with persists := s.persists.put sec { p with recorded := p.recorded ++ [(h, write)] } }
  s.formBatch sec

/-- R316: PREQ. -/
def execPreq (msg : Nat) (s : State) : Outcome State Fault Refusal :=
  .next <| match s.msgOf msg .preq with
    | none => s
    | some m => (s.consume m).record m.sector m.src m.write

/-- R318: DONE: the next requester of the batch is activated, or the batch ends with DEACT. -/
def execDone (msg : Nat) (s : State) : Outcome State Fault Refusal :=
  .next <| match s.msgOf msg .done with
    | none => s
    | some m =>
      let s := s.consume m
      let p := s.persistOf m.sector
      if p.active = some m.src ∧ p.pos = m.pos then
        let p' := { p with batch := p.batch.drop 1, served := p.served ++ [m.src], active := none }
        let s : State := { s with persists := s.persists.put m.sector p' }
        if p'.batch ≠ [] then s.activate m.sector
        else
          let s := ((holdersOf m.sector).filter fun h => decide (h ≠ homeId) && !s.regs.holderMask.contains h).foldl
            (fun s h => s.send { blankMsg .deact m.sector (homeOf m.sector) h with pos := p.pos }) s
          (s.formBatch m.sector).forgetRead m.sector
      else s

/-- R318 step 2: a holder gives its tokens to the activated requester. -/
def State.yieldTokens (s : State) (h sec : Nat) : State :=
  match s.acts.look (holderKey h sec) with
  | some a => if a.requester = h then s.settleAt h sec else ((s.roundShadow h sec)).sendAll h a.requester sec
  | none => s

/-- R318, R319, R328, R329: ACT. The agent obtains the host's answer before it gives up tokens that the host relies on. -/
def execAct (msg : Nat) (s : State) : Outcome State Fault Refusal :=
  .next <| match s.msgOf msg .act with
    | none => s
    | some m =>
      let s := s.consume m
      let key := holderKey m.dst m.sector
      if s.deacts.any fun d => decide (d.1 = key ∧ d.2.1 = m.pos ∧ s.now < d.2.2 + 2600) then s
      else if ((s.acts.look key).map fun a => laterPos a.pos m.pos).getD false then s
      else
        let s : State := { s with acts := s.acts.put key ⟨m.pos, m.requester, m.next, false⟩ }
        if m.dst = agentId ∧ (s.needsRecall m || s.needsHost m) = true ∧ m.requester ≠ agentId then s.holdForHost m
        else s.yieldTokens m.dst m.sector

/-- R319: DEACT: it withdraws the ACT of its position, and one that does not find it is remembered. -/
def execDeact (msg : Nat) (s : State) : Outcome State Fault Refusal :=
  .next <| match s.msgOf msg .deact with
    | none => s
    | some m =>
      let s := s.consume m
      let key := holderKey m.dst m.sector
      match s.acts.look key with
      | some a => if a.pos = m.pos then { s with acts := s.acts.erase key } else { s with deacts := s.deacts ++ [(key, m.pos, s.now)] }
      | none => { s with deacts := s.deacts ++ [(key, m.pos, s.now)] }

/-- R319: DEACT_MEMORY_EXPIRE. -/
def execDeactMemoryExpire (holder sector : Nat) (s : State) : Outcome State Fault Refusal :=
  .next { s with deacts := s.deacts.filter fun d => decide (¬ (d.1 = holderKey holder sector ∧ d.2.2 + 2600 ≤ s.now)) }

/-- R310: MESSAGE_EXPIRE: a message older than 2600 clk is dropped, with the tokens that it carries. R317: without a PREQ that it waited for a batch forms;
R321: announced data that is lost ends its recreation. -/
def execMessageExpire (msg : Nat) (s : State) : Outcome State Fault Refusal :=
  .next <| match s.msgs.find? fun m => decide (m.msg = msg ∧ m.born + 2600 < s.now) with
    | none => s
    | some m =>
      let s := s.consume m
      match m.kind with
      | .preq => (s.formBatch m.sector).forgetRead m.sector
      | .data => match s.recreates.look m.sector with
        | some r => if r.due && decide (m.serial = r.serial ∧ m.dst = homeOf m.sector) then s.recreateOver m.sector { r with due := false } else s
        | none => s
      | _ => s

/-! ### Recreation (R321 to R323) -/

/-- R321, R323: RECREATE_TIMEOUT. A recreation that has not ended, because an answer was lost, begins again once 5200 clk are over. -/
def execRecreateTimeout (sector : Nat) (s : State) : Outcome State Fault Refusal :=
  .next <|
    let p := s.persistOf sector
    if p.active.isSome ∧ p.actClk + 26000 ≤ s.now ∧ (s.recreates.look sector = none ∨ s.recreateHeld sector = false) then
      s.recreate sector false
    else s

/-- R323: RECREATE_DEFERRED. -/
def execRecreateDeferred (sector : Nat) (s : State) : Outcome State Fault Refusal :=
  .next <|
    if s.recrHeld.contains sector && !s.recreateHeld sector then s.recreate sector (!(s.residues.get {} sector).parityOk) else s

/-- R321 step 2: a holder discards its tokens, takes the new serial and answers RACK; dirty owned data goes home first. -/
def State.discard (s : State) (m : Msg) : State :=
  let s := s.roundShadow m.dst m.sector
  let t := s.tok m.dst m.sector
  let home := homeOf m.sector
  let back := t.owner && t.valid && t.dirty
  let s := if back then
      s.send { blankMsg .data m.sector m.dst home with owner := true, dirty := true, serial := m.serial } else s
  let s := s.setTok m.dst m.sector { serial := m.serial }
  let s : State := { s with acts := s.acts.erase (holderKey m.dst m.sector) }
  s.send { blankMsg .rack m.sector m.dst home with owner := back, serial := t.serial }

/-- R321, R328: RECR. -/
def execRecr (msg : Nat) (s : State) : Outcome State Fault Refusal :=
  .next <| match s.msgOf msg .recr with
    | none => s
    | some m =>
      let s := s.consume m
      if m.dst = agentId ∧ s.needsRecall m = true then s.holdForHost m else s.discard m

/-- R309, R321: RACK, which may come before the data that it announces. -/
def execRack (msg : Nat) (s : State) : Outcome State Fault Refusal :=
  .next <| match s.msgOf msg .rack with
    | none => s
    | some m =>
      let s := s.consume m
      match s.recreates.look m.sector with
      | none => s
      | some r => s.recreateOver m.sector
          { r with awaited := r.awaited.filter fun h => decide (h ≠ m.src), old := r.old ++ [m.serial], due := r.due || m.owner }

/-! ### The host port agent (R326 to R331) -/

/-- R328: BINV. -/
def execBinv (msg : Nat) (s : State) : Outcome State Fault Refusal :=
  .next <| match s.msgOf msg .binv with
    | none => s
    | some m =>
      let s := s.consume m
      if s.needsRecall m then s.holdForHost m else s.sendAll agentId homeId m.sector

/-- R328: HOST_MEMRD: MetaValue A (0), S (1) or I (2). R326: with its table full the agent first recalls a tracked
line. DESIGN CHOICE (log 115): the spec does not say which; it is the one with the lowest sector number. -/
def execHostMemrd (sector mval : Nat) (s : State) : Outcome State Fault Refusal :=
  .next <|
    let tracked := s.hostLines.filter fun p => !isHostSec p.1
    if isHostSec sector || (s.hostReads.look sector).isSome || decide (2 < mval) then s
    else match if 2 ^ 20 ≤ tracked.length then tracked.head? else none with
      | some (x, _) =>
        if s.agentAnswers.any fun m => m.sector = x then s
        else s.holdForHost (blankMsg .binv x homeId agentId)
      | none =>
        let s : State := { s with hostReads := s.hostReads.put sector mval }
        (if (if mval = 0 then (s.tok agentId sector).canWrite else (s.tok agentId sector).canRead) then s
          else s.allocMiss agentId sector (decide (mval = 0)) 0 0).agentSettle sector

/-- R328: HOST_MEMWR: with every token at the agent the data goes home by WB; without them the agent holds the data and collects the
tokens first. -/
def execHostMemwr (sector : Nat) (bytes : List Byte) (s : State) : Outcome State Fault Refusal :=
  .next <|
    if isHostSec sector || decide (bytes.length ≠ 64) then s
    else if (s.tok agentId sector).canWrite then s.writeHome sector bytes
    else ({ s with hostWrites := s.hostWrites.put sector bytes }).allocMiss agentId sector true 0 0

/-- R328: what the agent does with a held message once the host has answered its back-invalidate. -/
def State.afterBi (s : State) (m : Msg) : State :=
  match m.kind with
  | .recr => s.discard m
  | .act => s.yieldTokens agentId m.sector
  | .binv => s.sendAll agentId homeId m.sector
  | _ => s.answer m

/-- R328: HOST_BI_RESPONSE: BIRspS (inval = 0) or BIRspI, with the data of a line in M. After BIRspS the first GETS is answered, and any other is refused,
since the host's line is now S. -/
def execHostBiResponse (sector inval : Nat) (bytes : List Byte) (s : State) : Outcome State Fault Refusal :=
  .next <|
    let held := s.agentAnswers.filter fun m => m.sector = sector
    if held = [] ∨ isHostSec sector = true then s
    else
      let s := s.excuse sector
      let s := if bytes.length = 64 then
          let s := (s.healSectors false (sectorCells sector bytes)).mergeBytes (sectorCells sector bytes)
          s.setTok agentId sector { s.tok agentId sector with dirty := (s.tok agentId sector).owner }
        else s
      if inval = 0 then
        let gets (m : Msg) : Bool := decide (m.sector = sector ∧ m.kind = .gets)
        match held.filter gets with
        | [] => s
        | m :: rest =>
          let s : State := { s with agentAnswers := s.agentAnswers.filter fun x => !gets x }
          let t := s.tok agentId sector
          if t.owner && decide (2 ≤ t.tokens) then
            let s : State := { s with hostLines := s.hostLines.set 0 sector 1 }
            rest.foldl (fun s m => s.answerNow m) ((s.sendTokens agentId m.src sector 1 false true).shedOwner sector)
          else (m :: rest).foldl (fun s m => s.answerNow m) s
      else
        let s : State := { s with
          agentAnswers := s.agentAnswers.filter fun x => decide (x.sector ≠ sector)
          hostLines := s.hostLines.set 0 sector 0 }
        (held.foldl (fun s m => s.afterBi m) s).agentTidy sector

/-- R329: HOST_SNOOP: SnpData (inval = 0) or SnpInv; tokens that the dies hold are recalled first. -/
def execHostSnoop (sector inval : Nat) (s : State) : Outcome State Fault Refusal :=
  .next <|
    let st := s.hostLines.get 0 sector
    if !isHostSec sector || decide (st = 0) || (s.recalls.any fun p => p.1 = sector) then s
    else if (s.tok agentId sector).tokens = 16 then
      let s := s.roundShadow agentId sector
      { s with hostLines := s.hostLines.set 0 sector (if inval = 0 then 1 else 0) }
    else if inval = 0 ∧ st = 1 then s
    else ({ s with recalls := s.recalls ++ [(sector, decide (inval ≠ 0))] }).record sector agentId true

/-- R329: CXL_CACHE_RESPONSE: the host grants RdShared (own = 0) or RdOwn with its data, and the held requests are answered. -/
def execCxlCacheResponse (sector own : Nat) (bytes : List Byte) (s : State) : Outcome State Fault Refusal :=
  .next <|
    let st := s.hostLines.get 0 sector
    let wants := (s.agentAnswers.any fun m => m.sector = sector) || (s.missOf agentId sector).isSome
      || s.ops.any fun p => p.2.lanes.any fun l => l.val.isNone && decide (l.space = .host) && l.pas.any fun a => sectorOf a = sector
    if !isHostSec sector || !wants || decide (2 ≤ st) then s
    else
      let s := s.excuse sector
      let s := if st = 0 ∧ bytes.length = 64 then (s.healSectors false (sectorCells sector bytes)).mergeBytes (sectorCells sector bytes) else s
      let s : State := { s with hostLines := s.hostLines.set 0 sector (if own = 0 then 1 else 2) }
      let ready (m : Msg) : Bool := decide (m.sector = sector) && !s.needsHost m
      let held := s.agentAnswers.filter ready
      let s : State := { s with agentAnswers := s.agentAnswers.filter fun m => !ready m }
      (held.foldl (fun s m => s.afterBi m) s).settleAt agentId sector

end Sys2Proof.Machine
end

