-- ==== Sys2Proof/Machine/LaneCross.lean ====
section
/-! DEFINITION. The cross-lane instructions (R133 to R137). -/

namespace Sys2Proof.Machine

open Host (Outcome)

/-- R134: a moved value of a from the lane that `src` names, given the receiving lane and b[4:0]. -/
def laneXch (m : Bool) (d a b : BitVec 7) (src : Nat → Nat → Nat) (s : State) : Host.Outcome State Fault Refusal :=
  lane 2 m [opd d, opd a, opd b] (fun g k => g.wr d.toNat k fun L => g.cross k a.toNat (src L (amount (g.rd b.toNat L)))) s

/-- R135: a shifted vector; `f` computes lane L's result from reads of a and b in other lanes. -/
def laneSlide (m : Bool) (d a b : BitVec 7) (f : (Nat → Word) → (Nat → Word) → Nat → Word) (s : State) :
    Host.Outcome State Fault Refusal :=
  lane 2 m [opd d, opd a, opd b] (fun g k => g.wr d.toNat k (f (g.cross k a.toNat) (g.cross k b.toNat))) s

/-- R136: the active lanes whose a is not 0. -/
def Group.flagged (g : Group) (k : Mask) (a : BitVec 7) : List Nat := (lanes k).filter fun L => g.rd a.toNat L ≠ 0

/-- R137: one level of the fixed tree. -/
def treeLevel : List Word → List Word
  | x :: y :: t => faddW x y :: treeLevel t
  | l => l

/-- R134: lane n. -/
def execLxchPick (m : Bool) (b a d : BitVec 7) (s : State) : Host.Outcome State Fault Refusal :=
  laneXch m d a b (fun _ n => n) s

/-- R134: lane (L - n) mod 32. -/
def execLxchRotr (m : Bool) (b a d : BitVec 7) (s : State) : Host.Outcome State Fault Refusal :=
  laneXch m d a b (fun L n => (L + 32 - n) % 32) s

/-- R134: lane (L + n) mod 32. -/
def execLxchRotl (m : Bool) (b a d : BitVec 7) (s : State) : Host.Outcome State Fault Refusal :=
  laneXch m d a b (fun L n => (L + n) % 32) s

/-- R134: lane L xor (2^k - 1), k = min(n, 5). -/
def execLxchRev (m : Bool) (b a d : BitVec 7) (s : State) : Host.Outcome State Fault Refusal :=
  laneXch m d a b (fun L n => L ^^^ (2 ^ min n 5 - 1)) s

/-- R135. -/
def execSlideUp1H (m : Bool) (b a d : BitVec 7) (s : State) : Host.Outcome State Fault Refusal :=
  laneSlide m d a b (fun a b L =>
    (a L).extractLsb' 0 16 ++ (if L = 0 then b 31 else a (L - 1)).extractLsb' 16 16) s

/-- R135. -/
def execSlideDn1H (m : Bool) (b a d : BitVec 7) (s : State) : Host.Outcome State Fault Refusal :=
  laneSlide m d a b (fun a b L =>
    (if L < 31 then a (L + 1) else b 0).extractLsb' 0 16 ++ (a L).extractLsb' 16 16) s

/-- R135. -/
def execSlideUp1W (m : Bool) (b a d : BitVec 7) (s : State) : Host.Outcome State Fault Refusal :=
  laneSlide m d a b (fun a b L => if L = 0 then b 31 else a (L - 1)) s

/-- R135. -/
def execSlideDn1W (m : Bool) (b a d : BitVec 7) (s : State) : Host.Outcome State Fault Refusal :=
  laneSlide m d a b (fun a b L => if L < 31 then a (L + 1) else b 0) s

/-- R136: the flagged lanes as a mask. -/
def execLmaskSet (m : Bool) (a d : BitVec 7) (s : State) : Host.Outcome State Fault Refusal :=
  lane 2 m [opd d, opd a] (fun g k => g.wr d.toNat k fun _ => maskOf (g.flagged k a)) s

/-- R136: how many lanes are flagged. -/
def execLmaskCnt (m : Bool) (a d : BitVec 7) (s : State) : Host.Outcome State Fault Refusal :=
  lane 2 m [opd d, opd a] (fun g k => g.wr d.toNat k fun _ => BitVec.ofNat 32 (g.flagged k a).length) s

/-- R136: how many lower lanes are flagged. -/
def execLmaskPfx (m : Bool) (a d : BitVec 7) (s : State) : Host.Outcome State Fault Refusal :=
  lane 2 m [opd d, opd a] (fun g k => g.wr d.toNat k fun L => BitVec.ofNat 32 ((g.flagged k a).filter fun M => decide (M < L)).length) s

/-- R136: the lowest flagged lane, 32 for none. -/
def execLmaskFirst (m : Bool) (a d : BitVec 7) (s : State) : Host.Outcome State Fault Refusal :=
  lane 2 m [opd d, opd a] (fun g k => g.wr d.toNat k fun _ => BitVec.ofNat 32 ((g.flagged k a).head?.getD 32)) s

/-- R137: the wrapping sum of the active lanes. -/
def execGredAddI32 (m : Bool) (a d : BitVec 7) (s : State) : Host.Outcome State Fault Refusal :=
  lane 2 m [opd d, opd a] (fun g k => let x := (lanes k).map (g.rd a.toNat); g.wr d.toNat k fun _ => x.foldl (· + ·) 0) s

/-- R137: the signed maximum. -/
def execGredMaxI32 (m : Bool) (a d : BitVec 7) (s : State) : Host.Outcome State Fault Refusal :=
  lane 2 m [opd d, opd a] (fun g k => let x := (lanes k).map (g.rd a.toNat); g.wr d.toNat k fun _ => x.tail.foldl maxI (x.headD 0)) s

/-- R137: the signed minimum. -/
def execGredMinI32 (m : Bool) (a d : BitVec 7) (s : State) : Host.Outcome State Fault Refusal :=
  lane 2 m [opd d, opd a] (fun g k => let x := (lanes k).map (g.rd a.toNat); g.wr d.toNat k fun _ => x.tail.foldl minI (x.headD 0)) s

/-- R137: the fixed tree of f32 additions; an inactive lane contributes -0. -/
def execGredAddF32 (m : Bool) (a d : BitVec 7) (s : State) : Host.Outcome State Fault Refusal :=
  lane 2 m [opd d, opd a]
    (fun g k =>
      let x := (List.range 32).map fun L => if k.getLsbD L then g.rd a.toNat L else 0x80000000
      g.wr d.toNat k fun _ => (iter treeLevel 5 x).headD 0) s

end Sys2Proof.Machine
end

