-- ==== Sys2Proof/Machine/LaneFloat.lean ====
section
/-! DEFINITION. The floating-point lane instructions, conversions and quantisation (R121 to R132). -/

namespace Sys2Proof.Machine

open Host (Outcome)

/-- R121. -/
def execFaddF32 (m : Bool) (b a d : BitVec 7) (s : State) : Host.Outcome State Fault Refusal :=
  lane2 2 m d.toNat a.toNat b.toNat faddW s

/-- R121. -/
def execFsubF32 (m : Bool) (b a d : BitVec 7) (s : State) : Host.Outcome State Fault Refusal :=
  lane2 2 m d.toNat a.toNat b.toNat fsubW s

/-- R121. -/
def execFmulF32 (m : Bool) (b a d : BitVec 7) (s : State) : Host.Outcome State Fault Refusal :=
  lane2 2 m d.toNat a.toNat b.toNat fmulW s

/-- R121: d := rne(d + a × b, f32). -/
def execFfmaF32 (m : Bool) (b a d : BitVec 7) (s : State) : Host.Outcome State Fault Refusal :=
  lane3 m d a b ffmaW s

/-- R122. -/
def execFminF32 (m : Bool) (b a d : BitVec 7) (s : State) : Host.Outcome State Fault Refusal :=
  lane2 2 m d.toNat a.toNat b.toNat fminW s

/-- R122. -/
def execFmaxF32 (m : Bool) (b a d : BitVec 7) (s : State) : Host.Outcome State Fault Refusal :=
  lane2 2 m d.toNat a.toNat b.toNat fmaxW s

/-- R122. -/
def execFabsF32 (m : Bool) (a d : BitVec 7) (s : State) : Host.Outcome State Fault Refusal :=
  lane1 2 m d.toNat a.toNat fabsW s

/-- R122. -/
def execFnegF32 (m : Bool) (a d : BitVec 7) (s : State) : Host.Outcome State Fault Refusal :=
  lane1 2 m d.toNat a.toNat fnegW s

/-- R123. -/
def execHaddBf16x2 (m : Bool) (b a d : BitVec 7) (s : State) : Host.Outcome State Fault Refusal :=
  lane2 2 m d.toNat a.toNat b.toNat (hadd bf16) s

/-- R123. -/
def execHmulBf16x2 (m : Bool) (b a d : BitVec 7) (s : State) : Host.Outcome State Fault Refusal :=
  lane2 2 m d.toNat a.toNat b.toNat (hmul bf16) s

/-- R123: exact product and sum, one rounding. -/
def execHfmaBf16x2 (m : Bool) (b a d : BitVec 7) (s : State) : Host.Outcome State Fault Refusal :=
  lane3 m d a b (hfma bf16) s

/-- R123, R122. -/
def execHmaxBf16x2 (m : Bool) (b a d : BitVec 7) (s : State) : Host.Outcome State Fault Refusal :=
  lane2 2 m d.toNat a.toNat b.toNat (hmax bf16) s

/-- R123. -/
def execHaddF16x2 (m : Bool) (b a d : BitVec 7) (s : State) : Host.Outcome State Fault Refusal :=
  lane2 2 m d.toNat a.toNat b.toNat (hadd f16) s

/-- R123. -/
def execHmulF16x2 (m : Bool) (b a d : BitVec 7) (s : State) : Host.Outcome State Fault Refusal :=
  lane2 2 m d.toNat a.toNat b.toNat (hmul f16) s

/-- R123: exact product and sum, one rounding. -/
def execHfmaF16x2 (m : Bool) (b a d : BitVec 7) (s : State) : Host.Outcome State Fault Refusal :=
  lane3 m d a b (hfma f16) s

/-- R123, R122. -/
def execHmaxF16x2 (m : Bool) (b a d : BitVec 7) (s : State) : Host.Outcome State Fault Refusal :=
  lane2 2 m d.toNat a.toNat b.toNat (hmax f16) s

/-- R124. -/
def execRcpF32 (m : Bool) (a d : BitVec 7) (s : State) : Host.Outcome State Fault Refusal :=
  lane1 2 m d.toNat a.toNat rcpW s

/-- R124. -/
def execRsqF32 (m : Bool) (a d : BitVec 7) (s : State) : Host.Outcome State Fault Refusal :=
  lane1 2 m d.toNat a.toNat rsqW s

/-- R124. -/
def execExp2F32 (m : Bool) (a d : BitVec 7) (s : State) : Host.Outcome State Fault Refusal :=
  lane1 2 m d.toNat a.toNat exp2W s

/-- R124. -/
def execLog2F32 (m : Bool) (a d : BitVec 7) (s : State) : Host.Outcome State Fault Refusal :=
  lane1 2 m d.toNat a.toNat log2W s

/-- R125. -/
def execFdivF32 (m : Bool) (b a d : BitVec 7) (s : State) : Host.Outcome State Fault Refusal :=
  lane2 2 m d.toNat a.toNat b.toNat fdivW s

/-- R125. -/
def execSqrtF32 (m : Bool) (a d : BitVec 7) (s : State) : Host.Outcome State Fault Refusal :=
  lane1 2 m d.toNat a.toNat fsqrtW s

/-- R125. -/
def execFrndF32 (m : Bool) (a d : BitVec 7) (s : State) : Host.Outcome State Fault Refusal :=
  lane1 2 m d.toNat a.toNat frndW s

/-- R126: one-hot class of a. -/
def execFclsF32 (m : Bool) (a d : BitVec 7) (s : State) : Host.Outcome State Fault Refusal :=
  lane1 2 m d.toNat a.toNat fclsW s

/-- R127: operands of a conversion: an i64 source or destination is a pair. -/
def cvOpds (src dst : BitVec 4) (a d : BitVec 7) : List Opd :=
  [(d.toNat, if dst = 12 then 2 else 1), (a.toNat, if src = 12 then 2 else 1)]

/-- R127: the source bits of a lane. -/
def Group.cvSource (g : Group) (src : BitVec 4) (a : BitVec 7) (L : Nat) : Nat :=
  if src = 12 then (g.rd64 a.toNat L).toNat else (g.rd a.toNat L).toNat

/-- R127: writes a conversion's result and its clamp report. -/
def Group.cvWrite (g : Group) (dst : BitVec 4) (d : BitVec 7) (k : Mask) (f : Nat → Nat × Bool) : Group :=
  (if dst = 12 then g.wr64 d.toNat k fun L => BitVec.ofNat 64 (f L).1
    else g.wr d.toNat k fun L => BitVec.ofNat 32 (f L).1).sticky k fun L => (f L).2

/-- R128: source format r, destination format t, saturation u. -/
def execCvt (m : Bool) (u : BitVec 1) (r t : BitVec 4) (a d : BitVec 7) (s : State) : Host.Outcome State Fault Refusal :=
  lane 2 m (cvOpds r t a d)
    (fun g k => g.cvWrite t d k fun L => cvtValue (u = 1) r.toNat t.toNat (g.cvSource r a L)) s

/-- R129: truncates towards zero; the sat bit is ignored. -/
def execCvtz (m : Bool) (_u : BitVec 1) (r t : BitVec 4) (a d : BitVec 7) (s : State) : Host.Outcome State Fault Refusal :=
  lane 2 m (cvOpds r t a d)
    (fun g k => g.cvWrite t d k fun L => cvtzValue r.toNat t.toNat (g.cvSource r a L)) s

/-- R130: lane 8j + i's x, +0 from a lane outside the mask. -/
def Group.quantIn (g : Group) (k : Mask) (a : BitVec 7) (j n : Nat) : List FV :=
  (fromN (n * j) n).map fun L => if k.getLsbD L then fw (g.rd a.toNat L) else .fin false 0 0

/-- R130: the band scale of block j, read in the block's lowest active lane. -/
def Group.bandOf (g : Group) (k : Mask) (b : BitVec 7) (j : Nat) : Nat :=
  (g.rd b.toNat (((fromN (8 * j) 8).find? fun L => k.getLsbD L).getD 0)).toNat % 65536

/-- Eight 4-bit codes in a word, the first lowest. -/
def packCodes (q : List Nat) : Word := BitVec.ofNat 32 (q.foldr (fun x r => x % 16 + 16 * r) 0)

/-- R130: quantises blocks of eight lanes. -/
def execQntFp4b8 (m : Bool) (b a d : BitVec 7) (s : State) : Host.Outcome State Fault Refusal :=
  lane 2 m [pairOpd d, opd a, opd b]
    (fun g k =>
      let r := (List.range 4).map fun j => quantB8 (g.quantIn k a j 8) (g.bandOf k b j)
      g.wr64 d.toNat k fun L =>
        let x := r.getD (L / 8) ([], 0)
        BitVec.ofNat 32 x.2 ++ packCodes x.1) s

/-- R131: quantises the 32 lanes as one MXFP4 block. -/
def execQntMxfp4 (m : Bool) (a d : BitVec 7) (s : State) : Host.Outcome State Fault Refusal :=
  lane 2 m [pairOpd d, opd a]
    (fun g k =>
      let r := quantMx (g.quantIn k a 0 32)
      g.wr64 d.toNat k fun L => BitVec.ofNat 32 r.2 ++ packCodes ((r.1.drop (8 * (L / 8))).take 8)) s

/-- R132: d := rne(g × s × v(q), f32). -/
def execDqntFp4b8 (m : Bool) (b a d : BitVec 7) (s : State) : Host.Outcome State Fault Refusal :=
  lane 2 m [opd d, pairOpd a, opd b]
    (fun g k => g.wr d.toNat k fun L =>
      let x := (g.rd64 a.toNat L).toNat
      wf32 (b8Value (g.bandOf k b (L / 8)) (x / 2 ^ 32 % 256) (x / 16 ^ (L % 8) % 16))) s

end Sys2Proof.Machine
end

