-- ==== Sys2Proof/Machine/LaneInt.lean ====
section
/-! DEFINITION. The 16-bit forms (R74) and the integer lane instructions: arithmetic, logic, shifts, bit fields, packed
arithmetic, selects, compares, predicate logic and immediates (R106 to R120). -/

namespace Sys2Proof.Machine

open Host (Outcome)

/-- R120: SEL on a predicate. -/
def selOn (m : Bool) (n : Nat) (d a b : BitVec 7) (s : State) : Host.Outcome State Fault Refusal :=
  lane 2 m [opd d, opd a, opd b]
    (fun g k => g.wr d.toNat k fun L => if (g.pget n).getLsbD L then g.rd a.toNat L else g.rd b.toNat L) s

/-- R74: vd := vb (OR vd, vb, vb). -/
def execMov_16 (m : Bool) (b d : BitVec 5) (s : State) : Host.Outcome State Fault Refusal :=
  lane1 1 m d.toNat b.toNat (fun x => x) s

/-- R74: vd := sext(imm5). -/
def execMovi_16 (m : Bool) (i d : BitVec 5) (s : State) : Host.Outcome State Fault Refusal :=
  lane 1 m [opd5 d] (fun g k => g.wr d.toNat k fun _ => i.signExtend 32) s

/-- R74, R106: wrapping add. -/
def execAddI32_16 (m : Bool) (b d : BitVec 5) (s : State) : Host.Outcome State Fault Refusal :=
  lane2 1 m d.toNat d.toNat b.toNat (· + ·) s

/-- R74, R117: wrapping add of sext(imm5). -/
def execAddi_16 (m : Bool) (i d : BitVec 5) (s : State) : Host.Outcome State Fault Refusal :=
  lane1 1 m d.toNat d.toNat (· + i.signExtend 32) s

/-- R74, R106: wrapping subtract. -/
def execSubI32_16 (m : Bool) (b d : BitVec 5) (s : State) : Host.Outcome State Fault Refusal :=
  lane2 1 m d.toNat d.toNat b.toNat (· - ·) s

/-- R74, R106: low 32 bits of the product. -/
def execMulI32_16 (m : Bool) (b d : BitVec 5) (s : State) : Host.Outcome State Fault Refusal :=
  lane2 1 m d.toNat d.toNat b.toNat (· * ·) s

/-- R74, R107. -/
def execAnd_16 (m : Bool) (b d : BitVec 5) (s : State) : Host.Outcome State Fault Refusal :=
  lane2 1 m d.toNat d.toNat b.toNat (· &&& ·) s

/-- R74, R107. -/
def execOr_16 (m : Bool) (b d : BitVec 5) (s : State) : Host.Outcome State Fault Refusal :=
  lane2 1 m d.toNat d.toNat b.toNat (· ||| ·) s

/-- R74, R107. -/
def execXor_16 (m : Bool) (b d : BitVec 5) (s : State) : Host.Outcome State Fault Refusal :=
  lane2 1 m d.toNat d.toNat b.toNat (· ^^^ ·) s

/-- R74, R107. -/
def execShl_16 (m : Bool) (b d : BitVec 5) (s : State) : Host.Outcome State Fault Refusal :=
  lane2 1 m d.toNat d.toNat b.toNat shlW s

/-- R74, R107, R117. -/
def execShli_16 (m : Bool) (i d : BitVec 5) (s : State) : Host.Outcome State Fault Refusal :=
  lane1 1 m d.toNat d.toNat (shlW · (i.setWidth 32)) s

/-- R74, R107, R117. -/
def execShri_16 (m : Bool) (i d : BitVec 5) (s : State) : Host.Outcome State Fault Refusal :=
  lane1 1 m d.toNat d.toNat (shrW · (i.setWidth 32)) s

/-- R74, R107, R117. -/
def execSari_16 (m : Bool) (i d : BitVec 5) (s : State) : Host.Outcome State Fault Refusal :=
  lane1 1 m d.toNat d.toNat (sarW · (i.setWidth 32)) s

/-- R74, R121. -/
def execFaddF32_16 (m : Bool) (b d : BitVec 5) (s : State) : Host.Outcome State Fault Refusal :=
  lane2 1 m d.toNat d.toNat b.toNat faddW s

/-- R74, R121. -/
def execFmulF32_16 (m : Bool) (b d : BitVec 5) (s : State) : Host.Outcome State Fault Refusal :=
  lane2 1 m d.toNat d.toNat b.toNat fmulW s

/-- R74, R121. -/
def execFsubF32_16 (m : Bool) (b d : BitVec 5) (s : State) : Host.Outcome State Fault Refusal :=
  lane2 1 m d.toNat d.toNat b.toNat fsubW s

/-- R72: does nothing, and is exempt from R10. -/
def execNop  (s : State) : Host.Outcome State Fault Refusal :=
  lane 1 false [] (fun g _ => g) s

/-- R72, R11: does nothing, and parks its group until its pending count is zero. -/
def execNopMarker  (s : State) : Host.Outcome State Fault Refusal :=
  lane 1 true [] (fun g _ => g) s

/-- R106: d := (a + b)[31:0]. -/
def execAddI32 (m : Bool) (b a d : BitVec 7) (s : State) : Host.Outcome State Fault Refusal :=
  lane2 2 m d.toNat a.toNat b.toNat (· + ·) s

/-- R106: d := (a - b)[31:0]. -/
def execSubI32 (m : Bool) (b a d : BitVec 7) (s : State) : Host.Outcome State Fault Refusal :=
  lane2 2 m d.toNat a.toNat b.toNat (· - ·) s

/-- R106: d := sat32(a + b). -/
def execAddsI32 (m : Bool) (b a d : BitVec 7) (s : State) : Host.Outcome State Fault Refusal :=
  lane2s m d a b (fun a b => sat32 (a.toInt + b.toInt)) s

/-- R106: d := sat32(a - b). -/
def execSubsI32 (m : Bool) (b a d : BitVec 7) (s : State) : Host.Outcome State Fault Refusal :=
  lane2s m d a b (fun a b => sat32 (a.toInt - b.toInt)) s

/-- R106: d := (a × b)[31:0]. -/
def execMulI32 (m : Bool) (b a d : BitVec 7) (s : State) : Host.Outcome State Fault Refusal :=
  lane2 2 m d.toNat a.toNat b.toNat (· * ·) s

/-- R106: d := (a × b)[63:32], signed. -/
def execMulhiI32 (m : Bool) (b a d : BitVec 7) (s : State) : Host.Outcome State Fault Refusal :=
  lane2 2 m d.toNat a.toNat b.toNat mulhiI s

/-- R106: d := (a × b)[63:32], unsigned. -/
def execMulhiN32 (m : Bool) (b a d : BitVec 7) (s : State) : Host.Outcome State Fault Refusal :=
  lane2 2 m d.toNat a.toNat b.toNat mulhiN s

/-- R106: the pair d := a × b, signed. -/
def execMulwI32 (m : Bool) (b a d : BitVec 7) (s : State) : Host.Outcome State Fault Refusal :=
  laneW m d a b mulwI s

/-- R106: d := (d + a × b)[31:0]. -/
def execMadI32 (m : Bool) (b a d : BitVec 7) (s : State) : Host.Outcome State Fault Refusal :=
  lane3 m d a b (fun d a b => d + a * b) s

/-- R106: the pair d := (d + a × b)[63:0], signed. -/
def execMadwI32 (m : Bool) (b a d : BitVec 7) (s : State) : Host.Outcome State Fault Refusal :=
  laneWAcc m d a b madwI s

/-- R106: the pair d := (d + a × b)[63:0], unsigned. -/
def execMadwN32 (m : Bool) (b a d : BitVec 7) (s : State) : Host.Outcome State Fault Refusal :=
  laneWAcc m d a b madwN s

/-- R106: d := (d + |a - b|)[31:0], a and b unsigned. -/
def execSadN32 (m : Bool) (b a d : BitVec 7) (s : State) : Host.Outcome State Fault Refusal :=
  lane3 m d a b sadN s

/-- R106: signed minimum. -/
def execMinI32 (m : Bool) (b a d : BitVec 7) (s : State) : Host.Outcome State Fault Refusal :=
  lane2 2 m d.toNat a.toNat b.toNat minI s

/-- R106: signed maximum. -/
def execMaxI32 (m : Bool) (b a d : BitVec 7) (s : State) : Host.Outcome State Fault Refusal :=
  lane2 2 m d.toNat a.toNat b.toNat maxI s

/-- R106: unsigned minimum. -/
def execMinN32 (m : Bool) (b a d : BitVec 7) (s : State) : Host.Outcome State Fault Refusal :=
  lane2 2 m d.toNat a.toNat b.toNat minN s

/-- R106: unsigned maximum. -/
def execMaxN32 (m : Bool) (b a d : BitVec 7) (s : State) : Host.Outcome State Fault Refusal :=
  lane2 2 m d.toNat a.toNat b.toNat maxN s

/-- R107: d := a and b. -/
def execAnd (m : Bool) (b a d : BitVec 7) (s : State) : Host.Outcome State Fault Refusal :=
  lane2 2 m d.toNat a.toNat b.toNat (· &&& ·) s

/-- R107: d := a or b. -/
def execOr (m : Bool) (b a d : BitVec 7) (s : State) : Host.Outcome State Fault Refusal :=
  lane2 2 m d.toNat a.toNat b.toNat (· ||| ·) s

/-- R107: d := a xor b. -/
def execXor (m : Bool) (b a d : BitVec 7) (s : State) : Host.Outcome State Fault Refusal :=
  lane2 2 m d.toNat a.toNat b.toNat (· ^^^ ·) s

/-- R107: d := a and not b. -/
def execAndn (m : Bool) (b a d : BitVec 7) (s : State) : Host.Outcome State Fault Refusal :=
  lane2 2 m d.toNat a.toNat b.toNat (fun a b => a &&& ~~~ b) s

/-- R107: d := a << b[4:0]. -/
def execShl (m : Bool) (b a d : BitVec 7) (s : State) : Host.Outcome State Fault Refusal :=
  lane2 2 m d.toNat a.toNat b.toNat shlW s

/-- R107: d := a >> b[4:0], zero fill. -/
def execShr (m : Bool) (b a d : BitVec 7) (s : State) : Host.Outcome State Fault Refusal :=
  lane2 2 m d.toNat a.toNat b.toNat shrW s

/-- R107: d := a >> b[4:0], filled with a[31]. -/
def execSar (m : Bool) (b a d : BitVec 7) (s : State) : Host.Outcome State Fault Refusal :=
  lane2 2 m d.toNat a.toNat b.toNat sarW s

/-- R107: d := a rotated left by b[4:0]. -/
def execRol (m : Bool) (b a d : BitVec 7) (s : State) : Host.Outcome State Fault Refusal :=
  lane2 2 m d.toNat a.toNat b.toNat rolW s

/-- R107: number of 1 bits. -/
def execPopc (m : Bool) (a d : BitVec 7) (s : State) : Host.Outcome State Fault Refusal :=
  lane1 2 m d.toNat a.toNat popcW s

/-- R107: leading 0 bits, 32 for 0. -/
def execClz (m : Bool) (a d : BitVec 7) (s : State) : Host.Outcome State Fault Refusal :=
  lane1 2 m d.toNat a.toNat clzW s

/-- R107: d[i] := a[31 - i]. -/
def execBrev (m : Bool) (a d : BitVec 7) (s : State) : Host.Outcome State Fault Refusal :=
  lane1 2 m d.toNat a.toNat brevW s

/-- R107: index of the lowest 1 bit, 32 for 0. -/
def execFfs (m : Bool) (a d : BitVec 7) (s : State) : Host.Outcome State Fault Refusal :=
  lane1 2 m d.toNat a.toNat ffsW s

/-- R108: zero-extended field. -/
def execBfxN32 (m : Bool) (b a d : BitVec 7) (s : State) : Host.Outcome State Fault Refusal :=
  lane2 2 m d.toNat a.toNat b.toNat bfxN s

/-- R108: sign-extended field. -/
def execBfxI32 (m : Bool) (b a d : BitVec 7) (s : State) : Host.Outcome State Fault Refusal :=
  lane2 2 m d.toNat a.toNat b.toNat bfxI s

/-- R108: inserts a field into d. -/
def execBfi (m : Bool) (b a d : BitVec 7) (s : State) : Host.Outcome State Fault Refusal :=
  lane3 m d a b bfiW s

/-- R108: byte permutation. -/
def execBysel (m : Bool) (b a d : BitVec 7) (s : State) : Host.Outcome State Fault Refusal :=
  lane2 2 m d.toNat a.toNat b.toNat byselW s

/-- R109: d := |a|[31:0]. -/
def execAbsI32 (m : Bool) (a d : BitVec 7) (s : State) : Host.Outcome State Fault Refusal :=
  lane1 2 m d.toNat a.toNat absW s

/-- R109: d := (-a)[31:0]. -/
def execNegI32 (m : Bool) (a d : BitVec 7) (s : State) : Host.Outcome State Fault Refusal :=
  lane1 2 m d.toNat a.toNat (fun a => -a) s

/-- R109: d := sext(a, n + 1), n = b[4:0]. -/
def execSext (m : Bool) (b a d : BitVec 7) (s : State) : Host.Outcome State Fault Refusal :=
  lane2 2 m d.toNat a.toNat b.toNat (fun a b => sextW a (amount b + 1)) s

/-- R109: d := zext(a, n + 1), n = b[4:0]. -/
def execZext (m : Bool) (b a d : BitVec 7) (s : State) : Host.Outcome State Fault Refusal :=
  lane2 2 m d.toNat a.toNat b.toNat (fun a b => zextW a (amount b + 1)) s

/-- R110. -/
def execAddI64 (m : Bool) (b a d : BitVec 7) (s : State) : Host.Outcome State Fault Refusal :=
  laneD m d a b (· + ·) s

/-- R110. -/
def execSubI64 (m : Bool) (b a d : BitVec 7) (s : State) : Host.Outcome State Fault Refusal :=
  laneD m d a b (· - ·) s

/-- R110: shift by b[5:0]. -/
def execShlI64 (m : Bool) (b a d : BitVec 7) (s : State) : Host.Outcome State Fault Refusal :=
  laneDW m d a b (fun a b => a <<< (b.toNat % 64)) s

/-- R110: shift by b[5:0], zero fill. -/
def execShrN64 (m : Bool) (b a d : BitVec 7) (s : State) : Host.Outcome State Fault Refusal :=
  laneDW m d a b (fun a b => a >>> (b.toNat % 64)) s

/-- R111: rne_int(a / 2^n). -/
def execShrrI32 (m : Bool) (b a d : BitVec 7) (s : State) : Host.Outcome State Fault Refusal :=
  lane2 2 m d.toNat a.toNat b.toNat shrrW s

/-- R111: sext(sat16(rne_int(a / 2^n)), 16). -/
def execShrrnI16 (m : Bool) (b a d : BitVec 7) (s : State) : Host.Outcome State Fault Refusal :=
  lane2s m d a b shrrn16 s

/-- R111: sext(sat16(a), 16). -/
def execSatnI16 (m : Bool) (a d : BitVec 7) (s : State) : Host.Outcome State Fault Refusal :=
  lane1s m d a (fun a => sat16 a.toInt) s

/-- R111: sext(sat8(a), 8). -/
def execSatnI8 (m : Bool) (a d : BitVec 7) (s : State) : Host.Outcome State Fault Refusal :=
  lane1s m d a (fun a => sat8 a.toInt) s

/-- R112: each element saturated. -/
def execPaddI16x2 (m : Bool) (b a d : BitVec 7) (s : State) : Host.Outcome State Fault Refusal :=
  lane2s m d a b (packed16 (· + ·)) s

/-- R112: each element saturated. -/
def execPsubI16x2 (m : Bool) (b a d : BitVec 7) (s : State) : Host.Outcome State Fault Refusal :=
  lane2s m d a b (packed16 (· - ·)) s

/-- R112: each element saturated. -/
def execPmulI16x2 (m : Bool) (b a d : BitVec 7) (s : State) : Host.Outcome State Fault Refusal :=
  lane2s m d a b (packed16 (· * ·)) s

/-- R112: the greater of each element. -/
def execPmaxI16x2 (m : Bool) (b a d : BitVec 7) (s : State) : Host.Outcome State Fault Refusal :=
  lane2 2 m d.toNat a.toNat b.toNat pmaxW s

/-- R113: an exact sum of products and d, saturated once. -/
def execPmad2I16 (m : Bool) (b a d : BitVec 7) (s : State) : Host.Outcome State Fault Refusal :=
  lane3s m d a b pmad2 s

/-- R113: an exact sum of products and d, saturated once. -/
def execPmad2xI16 (m : Bool) (b a d : BitVec 7) (s : State) : Host.Outcome State Fault Refusal :=
  lane3s m d a b pmad2x s

/-- R113: an exact sum of products and d, saturated once. -/
def execPmad4I8 (m : Bool) (b a d : BitVec 7) (s : State) : Host.Outcome State Fault Refusal :=
  lane3s m d a b pmad4 s

/-- R113: an exact sum of products and d, saturated once. -/
def execPmad2N16 (m : Bool) (b a d : BitVec 7) (s : State) : Host.Outcome State Fault Refusal :=
  lane3s m d a b pmad2n s

/-- R114. -/
def execPack16 (m : Bool) (b a d : BitVec 7) (s : State) : Host.Outcome State Fault Refusal :=
  lane2 2 m d.toNat a.toNat b.toNat pack16W s

/-- R114: sext(lo16(a), 16). -/
def execUnpkloI16 (m : Bool) (a d : BitVec 7) (s : State) : Host.Outcome State Fault Refusal :=
  lane1 2 m d.toNat a.toNat (fun a => ofI (e16 a 0)) s

/-- R114: sext(hi16(a), 16). -/
def execUnpkhiI16 (m : Bool) (a d : BitVec 7) (s : State) : Host.Outcome State Fault Refusal :=
  lane1 2 m d.toNat a.toNat (fun a => ofI (e16 a 1)) s

/-- R114: rounding shift of each element by b[3:0]. -/
def execPshrrI16x2 (m : Bool) (b a d : BitVec 7) (s : State) : Host.Outcome State Fault Refusal :=
  lane2 2 m d.toNat a.toNat b.toNat pshrrW s

/-- R120: d := p[n] ? a : b, n from 0 to 3. -/
def execSelP0P3 (m : Bool) (n : BitVec 2) (b a d : BitVec 7) (s : State) : Host.Outcome State Fault Refusal :=
  selOn m n.toNat d a b s

/-- R120: d := p[4 + n] ? a : b. -/
def execSelP4P7 (m : Bool) (n : BitVec 2) (b a d : BitVec 7) (s : State) : Host.Outcome State Fault Refusal :=
  selOn m (4 + n.toNat) d a b s

/-- R118: signed compare. -/
def execIcmpI32 (m : Bool) (c : BitVec 2) (b a : BitVec 7) (k : BitVec 4) (p : BitVec 3) (s : State) : Host.Outcome State Fault Refusal :=
  lane 2 m [opd a, opd b]
    (fun g w => g.setPred w p c fun L => icond k.toNat (g.rd a.toNat L).toInt (g.rd b.toNat L).toInt) s

/-- R118: unsigned compare. -/
def execIcmpN32 (m : Bool) (c : BitVec 2) (b a : BitVec 7) (k : BitVec 4) (p : BitVec 3) (s : State) : Host.Outcome State Fault Refusal :=
  lane 2 m [opd a, opd b]
    (fun g w => g.setPred w p c fun L => icond k.toNat (g.rd a.toNat L).toNat (g.rd b.toNat L).toNat) s

/-- R118: f32 compare. -/
def execFcmpF32 (m : Bool) (c : BitVec 2) (b a : BitVec 7) (k : BitVec 4) (p : BitVec 3) (s : State) : Host.Outcome State Fault Refusal :=
  lane 2 m [opd a, opd b]
    (fun g w => g.setPred w p c fun L => fcond k.toNat (g.rd a.toNat L) (g.rd b.toNat L)) s

/-- R118: signed compare with a 7-bit immediate. -/
def execIcmpiI32 (m : Bool) (c : BitVec 2) (i a : BitVec 7) (k : BitVec 4) (p : BitVec 3) (s : State) : Host.Outcome State Fault Refusal :=
  lane 2 m [opd a] (fun g w => g.setPred w p c fun L => icond k.toNat (g.rd a.toNat L).toInt i.toInt) s

/-- R119, R83: p[d] := o[2·p[a] + p[b]]. -/
def execPlog (m : Bool) (o : BitVec 4) (b a d : BitVec 3) (s : State) : Host.Outcome State Fault Refusal :=
  lane 2 m []
    (fun g w => g.setPred w d 0 fun L =>
      o.getLsbD (2 * ((g.pget a.toNat).getLsbD L).toNat + ((g.pget b.toNat).getLsbD L).toNat)) s

/-- R116: d[31:16] := imm16; d[15:0] unchanged. -/
def execMovhi (m : Bool) (i : BitVec 16) (d : BitVec 7) (s : State) : Host.Outcome State Fault Refusal :=
  lane 2 m [opd d] (fun g k => g.wr d.toNat k fun L => i ++ (g.rd d.toNat L).extractLsb' 0 16) s

/-- R117: d := a and k, k = sext(imm9). -/
def execAndi (m : Bool) (i : BitVec 9) (a d : BitVec 7) (s : State) : Host.Outcome State Fault Refusal :=
  lane1 2 m d.toNat a.toNat (· &&& i.signExtend 32) s

/-- R117: d := a or k, k = sext(imm9). -/
def execOri (m : Bool) (i : BitVec 9) (a d : BitVec 7) (s : State) : Host.Outcome State Fault Refusal :=
  lane1 2 m d.toNat a.toNat (· ||| i.signExtend 32) s

/-- R117: d := a xor k, k = sext(imm9). -/
def execXori (m : Bool) (i : BitVec 9) (a d : BitVec 7) (s : State) : Host.Outcome State Fault Refusal :=
  lane1 2 m d.toNat a.toNat (· ^^^ i.signExtend 32) s

/-- R117: d := (a × k)[31:0], k = sext(imm9). -/
def execMuli (m : Bool) (i : BitVec 9) (a d : BitVec 7) (s : State) : Host.Outcome State Fault Refusal :=
  lane1 2 m d.toNat a.toNat (· * i.signExtend 32) s

/-- R117, R107: shift or rotate by n. -/
def execShli (m : Bool) (n : BitVec 5) (a d : BitVec 7) (s : State) : Host.Outcome State Fault Refusal :=
  lane1 2 m d.toNat a.toNat (shlW · (n.setWidth 32)) s

/-- R117, R107: shift or rotate by n. -/
def execShri (m : Bool) (n : BitVec 5) (a d : BitVec 7) (s : State) : Host.Outcome State Fault Refusal :=
  lane1 2 m d.toNat a.toNat (shrW · (n.setWidth 32)) s

/-- R117, R107: shift or rotate by n. -/
def execSari (m : Bool) (n : BitVec 5) (a d : BitVec 7) (s : State) : Host.Outcome State Fault Refusal :=
  lane1 2 m d.toNat a.toNat (sarW · (n.setWidth 32)) s

/-- R117, R107: shift or rotate by n. -/
def execRoli (m : Bool) (n : BitVec 5) (a d : BitVec 7) (s : State) : Host.Outcome State Fault Refusal :=
  lane1 2 m d.toNat a.toNat (rolW · (n.setWidth 32)) s

end Sys2Proof.Machine
end

