-- ==== Sys2Proof/Machine/LoadStore.lean ====
section
/-! DEFINITION. Loads, stores, prefetches, pointer instructions and the fence (R176 to R186). -/

namespace Sys2Proof.Machine

open Host (Outcome)

/-- R178: LD. -/
def execLd (m : Bool) (x o : BitVec 1) (h : BitVec 2) (c z : BitVec 3) (a : BitVec 6) (d : BitVec 7) (s : State) :
    Outcome State Fault Refusal :=
  onSplit s fun I =>
    let acq := decide (o = 1)
    let rs := I.refs s (a6 a) (I.accessLanes d.toNat) (sizeBytes z) reading
    I.access s m [(d.toNat, sizeRegs z), addrOpd a] 0 rs fun s =>
      I.issueRead s m (I.op s (.load (sizeBytes z) (decide (x = 1)) acq) (scopeOf c) d.toNat (sizeRegs z) I.sp.mask h
        (rs.map fun r => r.acc [])) acq

/-- R180: LDS. -/
def execLds (m : Bool) (o : BitVec 1) (h : BitVec 2) (c z : BitVec 3) (a : BitVec 6) (d : BitVec 7) (s : State) :
    Outcome State Fault Refusal :=
  onSplit s fun I =>
    let acq := decide (o = 1)
    let rs := I.refs s (a6 a) [lowest I.sp.mask] (sizeBytes z) reading
    I.access s m [(d.toNat, sizeRegs z), addrOpd a] 0 rs fun s =>
      I.issueRead s m (I.op s (.load (sizeBytes z) false acq) (scopeOf c) d.toNat (sizeRegs z) I.sp.mask h
        (rs.map fun r => r.acc [])) acq

/-- R181: LDX. -/
def execLdx (m : Bool) (_x o : BitVec 1) (h : BitVec 2) (c z : BitVec 3) (a : BitVec 6) (d : BitVec 7) (s : State) :
    Outcome State Fault Refusal :=
  onSplit s fun I =>
    let acq := decide (o = 1)
    let wide := decide (z = 3)
    let idx (L : Nat) : Nat := (I.gr.rd d.toNat L).toNat % 512
    let rs := (I.accessLanes d.toNat).map fun L =>
      let va := (I.gr.rd64 (a6 a) L).toNat
      (⟨L, va, s.resolveLdx I.c I.gr L va (idx L) wide⟩ : Ref)
    I.access s m [(d.toNat, sizeRegs z), addrOpd a] 0 rs fun s =>
      I.issueRead s m (I.op s (.ldx wide acq) (scopeOf c) d.toNat (sizeRegs z) I.sp.mask h
        (rs.map fun r => r.acc [BitVec.ofNat 32 (idx r.lane)])) acq

/-- R201: sectors that a store adds to a window's staging buffer. -/
def State.stageNeed (s : State) (w : Nat) (rs : List Ref) : Nat :=
  let have_ := ((SMap.get ({} : Window) s.windows w).staged.map fun p => p.1 / 64).eraseDups
  (((rs.filter fun r => decide (r.res.space = .window w)).flatMap fun r => r.res.pas.map (· / 64)).eraseDups.filter
    fun x => !have_.contains x).length

/-- R201: whether the staging buffers have no room for a store. DESIGN CHOICE (log 106): the sectors of stores that have issued and are not yet staged
take no room. -/
def State.stageFull (s : State) (rs : List Ref) : Bool :=
  (List.range 8).any fun w =>
    let n := s.stageNeed w rs
    decide (0 < n) && decide (65536 < (SMap.get ({} : Window) s.windows w).sectors.length + n)

/-- R179: ST. -/
def execSt (m : Bool) (o : BitVec 1) (h : BitVec 2) (c z : BitVec 3) (a : BitVec 6) (v : BitVec 7) (s : State) :
    Outcome State Fault Refusal :=
  onSplit s fun I =>
    let rs := I.refs s (a6 a) (lanes I.sp.mask) (sizeBytes z) writing
    I.access s m [(v.toNat, sizeRegs z), addrOpd a] 1 rs fun s =>
      if s.stageFull rs then I.trap s 0xA6
      else
        let s := s.dirtyPages I.c I.gr.ctx rs
        I.issueWrite s m (I.op s (.store (sizeBytes z) (decide (o = 1))) (scopeOf c) 0 0 I.sp.mask h
          (rs.map fun r => r.acc (I.gr.rdN v.toNat (sizeRegs z) r.lane)))

/-- R182: one lane of PREF: a line for the L2, and its sectors for the L1 at a narrow scope; the second part counts a drop. -/
def Iss.prefetch (I : Iss) (sc : Scope) (h : BitVec 2) (s : State) (va : Nat) : State × Nat :=
  let tag := va / 2 ^ 60
  if tag = 14 ∨ tag = 15 then (s, 0)
  else if tag ≠ 0 ∨ va / 2 ^ 52 % 256 ≠ 0 then (s, 1)
  else match s.tlbFind I.c I.gr.ctx (pageOf va) with
    | none => (s.startWalk (dieOf I.c) I.gr.ctx (pageOf va) (some ⟨I.gr.uid, I.c, va, h, !sc.wide, false⟩), 0)
    | some e =>
      let r := (s.tlbUse I.c I.gr.ctx (pageOf va)).fetchLine I.c I.gr.ctx va (leafClass e.leaf.toNat) h e
      if r.2 then (r.1, 1)
      else if sc.wide || leafBit e.leaf.toNat 7 || leafBit e.leaf.toNat 8 then (r.1, 0)
      else
        let line := s.physOf e va / 256
        (r.1.addOp (I.op r.1 .pref sc 0 0 0 h ((fromN (4 * line) 4).map fun x =>
          ⟨0, BitVec.ofNat 64 va, .global, [64 * x], BitVec.ofNat 24 e.leaf.toNat, [], none⟩)), 0)

/-- R354: the pages of a PREF that are still to be walked. -/
def Iss.prefWalks (I : Iss) (s : State) (vas : List Nat) : List Nat :=
  ((vas.filter fun va => decide (va / 2 ^ 52 = 0)).map pageOf).eraseDups.filter fun p => (s.tlbFind I.c I.gr.ctx p).isNone

/-- R182: PREF. R354: with no room for its walks the split waits. -/
def execPref (m : Bool) (h : BitVec 2) (c : BitVec 3) (a : BitVec 6) (s : State) : Outcome State Fault Refusal :=
  onSplit s fun I =>
    I.access s m [addrOpd a] 0 [] fun s =>
      let vas := (lanes I.sp.mask).map fun L => (I.gr.rd64 (a6 a) L).toNat
      if !s.walkRoom (dieOf I.c) I.gr.ctx (I.prefWalks s vas) then s.setGrp I.c I.g (I.gr.hold I.k (.walk (I.prefWalks s vas)) m)
      else
      let r := vas.foldl (fun (r : State × Nat) va => let q := I.prefetch (scopeOf c) h r.1 va; (q.1, r.2 + q.2)) (s, 0)
      I.done r.1 ((iter Group.drop r.2 I.gr).touched I.k) 2 m

/-! ### Pointers (R176) -/

/-- R176: PTRMK. -/
def ptrMake (a b : Word) : Dword := b.extractLsb' 0 4 ++ b.extractLsb' 4 2 ++ (0 : BitVec 26) ++ a
/-- R176: PTRSP. -/
def ptrSpace (a : Dword) : Word := (0 : BitVec 26) ++ a.extractLsb' 58 2 ++ a.extractLsb' 60 4
/-- R176: PTRRK. -/
def ptrRank (a : Dword) (b : Word) : Dword := a.extractLsb' 60 4 ++ b.extractLsb' 0 2 ++ a.extractLsb' 0 58
/-- R176: PTROFF. -/
def ptrOff (a : Dword) (b : Word) : Dword := a.extractLsb' 58 6 ++ (a.extractLsb' 0 58 + b.signExtend 58)

def execPtrmk (m : Bool) (b a d : BitVec 7) (s : State) : Outcome State Fault Refusal := laneW m d a b ptrMake s
def execPtrsp (m : Bool) (a d : BitVec 7) (s : State) : Outcome State Fault Refusal :=
  lane 2 m [opd d, pairOpd a] (fun g k => g.wr d.toNat k fun L => ptrSpace (g.rd64 a.toNat L)) s
def execPtrrk (m : Bool) (b a d : BitVec 7) (s : State) : Outcome State Fault Refusal := laneDW m d a b ptrRank s
def execPtroff (m : Bool) (b a d : BitVec 7) (s : State) : Outcome State Fault Refusal := laneDW m d a b ptrOff s

/-! ### FENCE (R186) -/

/-- R189: an atomic that has issued and is not performed is also a release and an acquire. -/
def State.orderAtom (s : State) (id : Nat) : State :=
  match s.ops.look id with
  | some o => match o.kind with
    | .atomic a ret _ => { s with ops := s.ops.put id { o with kind := .atomic a ret true } }
    | _ => s
  | none => s

/-- R186: FENCE parks its group; FENCE_COMPLETE ends the park. R189: a FENCE of kind `.ar` orders the atomic before it and one that follows it. -/
def execFence (m : Bool) (k : BitVec 2) (c : BitVec 3) (s : State) : Outcome State Fault Refusal :=
  onSplit s fun I =>
    let I' : Iss := { I with gr := I.gr.modSlot I.k fun x => { x with afterFence := decide (k = 0), lastAtom := none } }
    I'.parkAs (if k = 0 then I.sp.lastAtom.elim s s.orderAtom else s) (.fence k (scopeOf c) s.serial) m

end Sys2Proof.Machine
end

