-- ==== Sys2Proof/Machine/Module.lean ====
section
/-! DEFINITION. The module's edge: publish windows (R438, R439), the host link (R436), stop causes (R170), power (R452 to R454), the
watchdogs (R460), encodings that are no instruction (R87), and the registers that the host and Survey write (R360, R364, R367, R395,
R437, R445, R452, R458). -/

namespace Sys2Proof.Machine

open Host (Outcome)

/-! ### Publish windows (R438, R439) -/

def State.window (s : State) (w : Nat) : Window := SMap.get ({} : Window) s.windows w
def State.setWindow (s : State) (w : Nat) (x : Window) : State := { s with windows := s.windows.put w x }

/-- R438: the first check that a registration fails; 0: none. -/
def State.windowFault (s : State) (x : Window) (ctx : Nat) : Nat :=
  let a := x.base.toNat
  let e := a + 65536 * x.len.toNat
  if a % 65536 ≠ 0 ∨ x.len.toNat < 1 ∨ 65536 < x.len.toNat ∨ 2 ^ 52 < e then 1
  else if s.windows.any fun p => p.2.en && decide (p.2.ctx = ctx ∧ p.2.base.toNat < e ∧ a < p.2.base.toNat + 65536 * p.2.len.toNat) then 2
  else if x.ctr.toNat % 8 ≠ 0 then 3
  else 0

/-- R439: PW_REGISTER: a write of pw.ctl with en = 1. -/
def execPwRegister (window : Nat) (val : BitVec 32) (s : State) : Outcome State Fault Refusal :=
  .next <|
    let x := s.window window
    let c := val.toNat % 64
    if x.en || x.busy then s
    else match s.windowFault x c with
      | 0 => s.setWindow window { x with ctx := c, en := true, result := 0, staged := [], drains := [] }
      | n => s.setWindow window { x with ctx := c, result := n }

/-- R439: PW_UNREGISTER: a write of pw.ctl with en = 0. -/
def execPwUnregister (window : Nat) (val : BitVec 32) (s : State) : Outcome State Fault Refusal :=
  .next <|
    let x := s.window window
    if x.busy then s
    else if x.en then s.setWindow window { x with en := false, busy := true, result := 0 }
    else s.setWindow window { x with ctx := val.toNat % 64 }

/-- R439 steps 2 and 3: PW_UNREGISTER_COMPLETE. -/
def execPwUnregisterComplete (window : Nat) (s : State) : Outcome State Fault Refusal :=
  let x := s.window window
  .next (if x.busy && x.drains.isEmpty then s.setWindow window { x with busy := false, staged := [] } else s)

/-! ### The host link (R436) -/

/-- R436: whether an end of a copy's byte lies on a host-flag page. -/
def CopyEnd.atHost : CopyEnd → Bool
  | .mem pa => decide (hostBase ≤ pa)
  | .window _ _ => true
  | .zero | .loc _ _ => false

/-- R331, R436: whether an access to a sector waits for the host: its page is the host's, or the agent waits for the answer to a back-invalidate. -/
def State.atHost (s : State) (sec : Nat) : Bool := isHostSec sec || s.agentAnswers.any fun m => m.sector = sec

/-- R331, R436: whether an operation is a system-scope access, or an access that a host answers. TLBINV accesses no memory. -/
def State.opUsesHost (s : State) (o : Op) : Bool :=
  (match o.kind with
    | .tlbinv _ => false
    | _ => decide (o.scope = .system))
    || o.lanes.any fun l => match l.space with
      | .host | .window _ => true
      | _ => l.val.isNone && decide (l.space.bank = none) && l.pas.any fun a => s.atHost (sectorOf a)

/-- R331, R436: whether a context has a system-scope access, an access to a host page, a PUBLISH, or an access that waits for a back-invalidate of
the host in flight: an operation, a pending write, a copy, a weight stream. -/
def State.usesHost (s : State) (x : Nat) : Bool :=
  s.ops.any (fun p => decide (p.2.ctx = x) && s.opUsesHost p.2)
    || s.dies.any (fun p => p.2.pw.any fun w => decide (w.ctx = x) && s.atHost w.sector)
    || s.windows.any (fun p => decide (p.2.ctx = x) && !p.2.drains.isEmpty)
    || s.cores.any fun p =>
      ((p.2.loadQ ++ p.2.storeQ).any fun o => decide (o.ctx = x)
          && (o.need.any s.atHost || o.reads.any isHostSec || o.cells.any fun y => y.dst.atHost))
        || (p.2.mqueue.any fun o => decide (o.ctx = x) && ((p.2.streams.look o.op).any fun y => y.need.any fun n => s.atHost n.1))
        || p.2.groups.any fun g => decide (g.2.ctx = x) && g.2.slots.any fun q => match q.2.wait with
          | .publish _ => true
          | _ => false

/-- R436: the host link is lost. -/
def State.loseHost (s : State) : State :=
  if !s.regs.hostUp then s
  else
    let hit := (s.ctxs.filter fun p => s.usesHost p.1).map Prod.fst
    let s : State := { s with regs := { s.regs with hostUp := false, ucie := [] } }
    let s : State := { s with windows := s.windows.mapVals fun _ w => if hit.contains w.ctx then { w with staged := [], drains := [] } else w }
    State.stopEach (hit.flatMap fun x => (s.cores.filter fun p => p.2.runs x).map fun p => (p.1, x)) 0xE9 s

/-- R436: UCIE_MODULE_FAIL: its flits replay on the others; the last one takes the link with it. -/
def execUcieModuleFail (module : Nat) (s : State) : Outcome State Fault Refusal :=
  let left := s.regs.ucie.filter fun m => decide (m ≠ module)
  let s' : State := { s with regs := { s.regs with ucie := left } }
  .next (if left.isEmpty then s'.loseHost else s')

/-- R436: HOST_LINK_LOST. -/
def execHostLinkLost (s : State) : Outcome State Fault Refusal := .next s.loseHost

/-! ### Stop causes and encodings that are no instruction (R87, R170) -/

/-- R170: MACHINE_STOP_CAUSE. 0xEB also ends the workgroups whose image the failed save slot, `core` / 12, holds. -/
def execMachineStopCause (cause : BitVec 8) (ctx die core : Nat) (s : State) : Outcome State Fault Refusal :=
  .next <|
    let c := die * 12 + core % 12
    if cause.toNat < 0xE0 ∨ 0xEC < cause.toNat ∨ 7 < die ∨ (if cause = 0xEB then 47 else 11) < core then s
    else
      let failed : Option Image := if cause = 0xEB then ((s.core c).slots.look (core / 12)).bind fun y => y.image else none
      let gangs : List Nat := match failed with
        | some im => im.wgs.map fun w => w.2.gang
        | none => []
      let s := gangs.foldl (fun s g => s.failGang g cause) s
      s.stopCtx c ctx cause

/-- R87: NOT_AN_INSTRUCTION: the cause of a fetched encoding, for the whole split; R90: it stops a sequencer. -/
def execNotAnInstruction (cause : BitVec 8) (s : State) : Outcome State Fault Refusal :=
  onBoth s (fun I => I.trap s cause) fun c cp => s.seqStop c cp cause

/-! ### Power (R452 to R454) -/

/-- R459: the record of an alarm or an emergency. -/
def State.powerEvent (s : State) (d : Nat) : State := s.postError ⟨0, 4, d, 0, 0, false, (s.die d).clk, 0⟩

/-- R453, R454: the alarm of a die is raised. -/
def State.raiseAlarm (s : State) (d : Nat) : State :=
  if s.regs.alarm.getLsbD d then s
  else State.powerEvent { s with regs := { s.regs with alarm := s.regs.alarm ||| (1 <<< d) } } d

/-- R454: a power emergency of a die: 0xE8 in every context running on it, and its cores are gated. -/
def State.emergency (s : State) (d : Nat) : State :=
  if s.regs.emerg.getLsbD d then s
  else
    let s := State.powerEvent { s with regs := { s.regs with emerg := s.regs.emerg ||| (1 <<< d) } } d
    let cs := fromN (12 * d) 12
    let s := cs.foldl (fun s c => match (s.core c).ctx with
      | some x => State.stopEach [(c, x)] 0xE8 s
      | none => s) s
    cs.foldl (fun s c => s.setCore c { s.core c with gated := true }) s

/-- R452: ASZ_CAP_WRITE. -/
def execAszCapWrite (val : BitVec 32) (s : State) : Outcome State Fault Refusal :=
  let n := val.toNat % 65536
  .next (if 400 ≤ n ∧ n ≤ 900 then { s with regs := { s.regs with aszCap := BitVec.ofNat 16 n } } else s)

def Regs.shareOf (g : Regs) (d : Nat) : Nat := (SMap.get (850 : BitVec 16) g.aszShare d).toNat

/-- R452: whether an estimate exceeds `num`/`den` of a die's share; all shares are scaled down in proportion where their sum exceeds
the cap less 2200 W. -/
def Regs.above (g : Regs) (d watts num den : Nat) : Bool :=
  let total := ((List.range 8).map g.shareOf).foldl (· + ·) 0
  let room := g.aszCap.toNat * 10 - 2200
  if room < total then decide (g.shareOf d * room * num < watts * total * den) else decide (g.shareOf d * num < watts * den)

/-- R453: a die's new estimate: two in a row above the share raise its alarm, 100 in a row at or below 90 % withdraw it. -/
def State.estimateDie (s : State) (d watts : Nat) : State :=
  let k := s.die d
  let k := { k with
    estimate := watts
    overs := if s.regs.above d watts 1 1 then k.overs + 1 else 0
    unders := if s.regs.above d watts 9 10 then 0 else k.unders + 1 }
  let s := s.setDie d k
  let s := if 2 ≤ k.overs then s.raiseAlarm d else s
  if 100 ≤ k.unders then { s with regs := { s.regs with alarm := s.regs.alarm &&& ~~~ ((1 : BitVec 8) <<< d) } } else s

/-- R453: POWER_ESTIMATE: the estimates of the dies, in W. -/
def execPowerEstimate (watts : List Nat) (s : State) : Outcome State Fault Refusal :=
  .next (((watts.take 8).zipIdx).foldl (fun s p => s.estimateDie p.2 p.1) s)

/-- R454: SENSOR_OVERTEMP. -/
def execSensorOvertemp (die celsius : Nat) (s : State) : Outcome State Fault Refusal :=
  let s' := if 95 ≤ celsius then s.raiseAlarm die else s
  .next (if 105 ≤ celsius then s'.emergency die else s')

/-- R454: the die with the highest estimate. -/
def State.hottest (s : State) : Nat := (leastBy (fun d => 2 ^ 64 - min (2 ^ 64) (s.die d).estimate) (List.range 8)).getD 0

/-- R454: INPUT_POWER_EXCESS. -/
def execInputPowerExcess (s : State) : Outcome State Fault Refusal :=
  .next (if s.regs.alarm = BitVec.allOnes 8 then s.emergency s.hottest else s)

/-- R454: EMERGENCY_RESELECT: the excess lasts, and the choice is made again. -/
def execEmergencyReselect (s : State) : Outcome State Fault Refusal :=
  .next (if s.regs.alarm = BitVec.allOnes 8 ∧ s.regs.emerg ≠ 0 then s.emergency s.hottest else s)

/-- R454: EMERGENCY_CLEAR: every sensor of the die reads below 90 °C. -/
def execEmergencyClear (die : Nat) (s : State) : Outcome State Fault Refusal :=
  .next <|
    if !s.regs.emerg.getLsbD die then s
    else
      let s : State := { s with regs := { s.regs with emerg := s.regs.emerg &&& ~~~ ((1 : BitVec 8) <<< die) } }
      (fromN (12 * die) 12).foldl (fun s c => s.setCore c { s.core c with gated := false }) s

/-! ### Watchdogs (R460) -/

/-- R460: WATCHDOG_EXPIRE: a core that has made no progress for `wd.period` ms, of 1 300 000 clk each, while it holds groups of a context. -/
def execWatchdogExpire (core : Nat) (s : State) : Outcome State Fault Refusal :=
  .next <|
    let k := s.core core
    let period := s.regs.wdPeriod.toNat * 1300000
    if period = 0 ∨ s.clkOf core < k.progress + period then s
    else match k.ctx with
      | some x => if k.runs x then s.stopCtx core x 0xEA else s
      | none => s

/-! ### The notification queue (R359, R360) -/

/-- R359: NQ_HEAD_WRITE: the records that the head passes leave their entries unqueued, with count 0. -/
def execNqHeadWrite (val : BitVec 32) (s : State) : Outcome State Fault Refusal :=
  let old := s.regs.nqHead
  let passed (e : Counter) : Bool := e.queued && decide ((BitVec.ofNat 32 e.record - old).toNat < (val - old).toNat)
  let clear (e : Counter) : Counter := if passed e then { e with queued := false, count := 0 } else e
  .next { s with
    regs := { s.regs with nqHead := val }
    dies := s.dies.mapVals fun _ d => if d.counters.isEmpty then d else { d with counters := d.counters.map clear } }

/-! ### Registers (R437) -/

/-- R437: the value of a register of up to 64 bits after a write of 4 or 8 bytes in its slot. -/
def merged64 (old val : BitVec 64) (size : Nat) (high : Bool) : BitVec 64 :=
  if size = 8 then val
  else if high then val.extractLsb' 0 32 ++ old.extractLsb' 0 32
  else old.extractLsb' 32 32 ++ val.extractLsb' 0 32

/-- R458, R360: a ring size within its limits; other values are ignored. -/
def ringSize (old v hi : Nat) : Nat := if 8 ≤ v % 16 ∧ v % 16 ≤ hi then v % 16 else old

/-- R367, R437: a write in a launch queue's slots. -/
def State.writeQueue (s : State) (c k off size : Nat) (high : Bool) (val : BitVec 64) : Outcome State Fault Refusal :=
  let q := (s.ctx c).queue k
  let v := val.setWidth 32
  match off with
  | 0x00 => execLqBaseWrite c k (merged64 q.base val size high) s
  | 0x08 => if high then .next s else execLqSizeWrite c k v s
  | 0x10 => if high then .next s else execLqTailWrite c k v s
  | 0x20 => .next (if high then s else s.setQueue c k { q with en := val.getLsbD 0, err := q.err && !val.getLsbD 1 })
  | _ => .next s

/-- R438, R437: a write in a publish window's slots. -/
def State.writeWindow (s : State) (w off size : Nat) (high : Bool) (val : BitVec 64) : Outcome State Fault Refusal :=
  let x := s.window w
  let v := val.setWidth 32
  match off with
  | 0x00 => .next (if x.en then s else s.setWindow w { x with base := merged64 x.base val size high })
  | 0x08 => .next (if x.en || high then s else s.setWindow w { x with len := v })
  | 0x10 => .next (if x.en then s else s.setWindow w { x with ctr := merged64 x.ctr val size high })
  | 0x18 => if high then .next s else if val.getLsbD 8 then execPwRegister w v s else execPwUnregister w v s
  | _ => .next s

/-- R437: the bytes of a write of up to 64 bytes; `more` has those past the eighth. -/
def writeBytes (size : Nat) (val : BitVec 64) (more : Nat) : List Byte := toBytes size (val.toNat + 2 ^ 64 * more)

/-- R437: whether an access of the BAR is of the staging area, which takes 1 to 64 bytes. -/
def inStaging (offset size : Nat) : Bool := decide (0x800000 ≤ offset ∧ offset + size ≤ 0x1000000 ∧ 1 ≤ size ∧ size ≤ 64)

/-- R437: a register access of 4 or 8 bytes, naturally aligned. -/
def regAccess (offset size : Nat) : Bool := decide ((size = 4 ∨ size = 8) ∧ offset % size = 0)

/-- R437: a write on the BAR; one of another size or alignment completes as an Unsupported Request. -/
def State.writeBar (s : State) (offset size : Nat) (val : BitVec 64) (more : Nat) : Outcome State Fault Refusal :=
  let g := s.regs
  let slot := offset / 8 * 8
  let high := decide (offset % 8 = 4)
  let v := val.setWidth 32
  if inStaging offset size then
    let cells := (fromN (offset - 0x800000) size).zip (writeBytes size val more)
    .next { s with regs := { g with staging := cells.foldl (fun m p => m.set 0 p.1 p.2) g.staging } }
  else if !regAccess offset size then .next { s with regs := { g with unsupported := g.unsupported + 1 } }
  else if 0x100000 ≤ slot ∧ slot < 0x104000 then
    s.writeQueue ((slot - 0x100000) / 0x100) (slot % 0x100 / 0x40) (slot % 0x40) size high val
  else if 0x400000 ≤ slot ∧ slot < 0x400200 then s.writeWindow ((slot - 0x400000) / 0x40) (slot % 0x40) size high val
  else match slot with
    | 0x08 => if high then .next s else execModBoot v s
    | 0x10 => if high || !val.getLsbD 0 then .next s else execWarmReset s
    | 0x100 => .next { s with regs := { g with nqBase := merged64 g.nqBase val size high } }
    | 0x108 => .next (if high then s else { s with regs := { g with nqSize := ringSize g.nqSize val.toNat 16 } })
    | 0x110 => if high then .next s else execNqHeadWrite v s
    | 0x120 => .next (if high then s else { s with regs := { g with nqOver := g.nqOver &&& ~~~ v } })
    | 0x200000 => if high then .next s else execCtxKill v s
    | 0x300000 => execCommOpen (merged64 g.commOpen val size high) s
    | 0x300008 => execCommClose (merged64 g.commClose val size high) s
    | _ => .next s

/-- R445, R446: a write of pp.ctl. -/
def State.writePort (s : State) (p : Nat) (val : BitVec 64) : Outcome State Fault Refusal :=
  match if val.getLsbD 0 then execPpEnable p s else .next (s.disablePort p) with
  | .next s => if val.getLsbD 1 then execPpRoll p s else .next s
  | r => r

/-- R395: a write of cx.ctl; R364: a write of fa.ctl. A running operation keeps its registers. -/
def Regs.cxCtl (g : Regs) (val : BitVec 64) : Regs :=
  if g.cxBusy then g
  else
    let op := val.toNat / 2 ^ 8 % 4
    let g := { g with cxCtx := val.toNat % 64, cxOp := op }
    if !val.getLsbD 31 then g else if 2 ≤ op then { g with cxResult := 5 } else { g with cxBusy := true }
def Regs.faCtl (g : Regs) (val : BitVec 64) : Regs :=
  if g.faBusy then g
  else { g with faCtx := val.toNat % 64, faSize := val.toNat / 2 ^ 8 % 4, faRel := val.getLsbD 10, faBusy := val.getLsbD 31 }

/-- R437: a write in the control processor's register space. R458: er.base is aligned on 4 KiB. -/
def State.writeControl (s : State) (offset size : Nat) (val : BitVec 64) : Outcome State Fault Refusal :=
  let g := s.regs
  let slot := offset / 8 * 8
  let high := decide (offset % 8 = 4)
  let v := val.setWidth 32
  if !regAccess offset size then .next s
  else if 0x1000 ≤ slot ∧ slot < 0x1400 then
    if slot % 0x40 = 8 ∧ high = false then s.writePort ((slot - 0x1000) / 0x40) val else .next s
  else match slot with
    | 0x2000 => .next { s with regs := { g with erBase := merged64 g.erBase val size high &&& ~~~ (0xFFF : BitVec 64) } }
    | 0x3000 =>
      .next (if g.cxBusy then s
        else { s with regs := { g with cxQuota := (merged64 (g.cxQuota.setWidth 64) val size high).setWidth 48 } })
    | 0x3100 =>
      .next (if g.faBusy then s
        else { s with regs := { g with faDpa := (merged64 (g.faDpa.setWidth 64) val size high).setWidth 48 } })
    | _ =>
      if high then .next s
      else match slot with
        | 0x0000 => execAszCapWrite v s
        | 0x2008 => .next { s with regs := { g with erSize := ringSize g.erSize val.toNat 14 } }
        | 0x2010 => .next { s with regs := { g with erHead := v } }
        | 0x2020 => .next { s with regs := { g with erOver := g.erOver &&& ~~~ v } }
        | 0x2028 => .next { s with regs := { g with wdPeriod := val.setWidth 16 } }
        | 0x3008 => .next { s with regs := g.cxCtl val }
        | 0x3108 => .next { s with regs := g.faCtl val }
        | _ =>
          .next (if 8 ≤ slot ∧ slot ≤ 0x40 then { s with regs := { g with aszShare := g.aszShare.put (slot / 8 - 1) (val.setWidth 16) } }
            else s)

/-- R321, R368, R377, R456: Survey's settings that no register space lists, by their place in the model (log 101): 0 the memory-light threshold, at most
48; 8 the quads out of service; 16 the holders marked isolated; 24 ready. -/
def State.writeSurvey (s : State) (offset : Nat) (val : BitVec 64) : State :=
  let set (n : Nat) : List Nat := (List.range n).filter val.getLsbD
  match offset with
  | 0 => if val.toNat ≤ 48 then { s with regs := { s.regs with memLight := val.toNat } } else s
  | 8 => { s with regs := { s.regs with deadQuads := set 24 } }
  | 16 => { s with regs := { s.regs with holderMask := set 34 } }
  | 24 => { s with regs := s.regs.setReady }
  | _ => s

/-- R437, R450: REGISTER_WRITE: space 0 is the BAR, 1 the control processor's register space, 2 Survey's settings, 3 a write of Survey's to device
memory. A space of 4 and more gives with its quotient by 4 the bytes past the eighth (log 65). -/
def execRegisterWrite (space offset size : Nat) (val : BitVec 64) (s : State) : Outcome State Fault Refusal :=
  match space % 4 with
  | 0 => s.writeBar offset size val (space / 4)
  | 1 => s.writeControl offset size val
  | 2 => .next (s.writeSurvey offset val)
  | _ => .next (if size ≤ 64 then s.surveyWrite offset (writeBytes size val (space / 4)) else s)

/-! ### Reads of registers (R437) -/

/-- Fields of a register, from the lowest bit that each begins at. -/
def fields (l : List (Nat × Nat)) : Nat := (l.map fun p => p.2 * 2 ^ p.1).foldl (· + ·) 0

/-- R367: the registers of a launch queue. -/
def LaunchQueue.read (q : LaunchQueue) (off : Nat) : Nat :=
  match off with
  | 0x00 => q.base.toNat
  | 0x08 => q.size
  | 0x10 => q.tail.toNat
  | 0x18 => q.head.toNat
  | 0x20 => fields [(0, q.en.toNat), (1, q.err.toNat)]
  | _ => 0

/-- R438: the registers of a publish window. -/
def Window.read (x : Window) (off : Nat) : Nat :=
  match off with
  | 0x00 => x.base.toNat
  | 0x08 => x.len.toNat
  | 0x10 => x.ctr.toNat
  | 0x18 => fields [(0, x.ctx), (8, x.en.toNat), (9, x.busy.toNat), (10, x.result)]
  | _ => 0

/-- R437: what the 8-byte slot of a BAR register holds; R456: `mod.stat`. -/
def State.barSlot (s : State) (slot : Nat) : Nat :=
  let g := s.regs
  if 0x100000 ≤ slot ∧ slot < 0x104000 then ((s.ctx ((slot - 0x100000) / 0x100)).queue (slot % 0x100 / 0x40)).read (slot % 0x40)
  else if 0x400000 ≤ slot ∧ slot < 0x400200 then (s.window ((slot - 0x400000) / 0x40)).read (slot % 0x40)
  else match slot with
    | 0x00 => fields [(0, g.bootStep), (4, g.bootFail), (31, g.ready.toNat)]
    | 0x08 => g.bootLen.toNat
    | 0x100 => g.nqBase.toNat
    | 0x108 => g.nqSize
    | 0x110 => g.nqHead.toNat
    | 0x118 => g.nqTail.toNat
    | 0x120 => g.nqOver.toNat
    | 0x200000 => fields [(0, g.killCtx), (30, g.killing.toNat)]
    | 0x300000 => g.commOpen.toNat
    | 0x300008 => g.commClose.toNat
    | 0x300010 => fields [(0, g.commBusy.toNat), (1, g.commResult)]
    | _ => 0

/-- R445: the registers of a peer port. -/
def Port.read (x : Port) (off : Nat) : Nat :=
  match off with
  | 0x00 => fields [(0, x.up.toNat), (1, x.enc.toNat), (2, x.kidx), (3, x.roll.toNat), (4, x.replays)]
  | 0x08 => fields [(0, x.en.toNat), (1, x.roll.toNat)]
  | _ => 0

/-- R437: what the 8-byte slot of a register of the control processor's space holds. -/
def State.controlSlot (s : State) (slot : Nat) : Nat :=
  let g := s.regs
  if 0x1000 ≤ slot ∧ slot < 0x1400 then (s.port ((slot - 0x1000) / 0x40)).read (slot % 0x40)
  else match slot with
    | 0x0000 => g.aszCap.toNat
    | 0x0048 => g.alarm.toNat
    | 0x0050 => g.emerg.toNat
    | 0x2000 => g.erBase.toNat
    | 0x2008 => g.erSize
    | 0x2010 => g.erHead.toNat
    | 0x2018 => g.erTail.toNat
    | 0x2020 => g.erOver.toNat
    | 0x2028 => g.wdPeriod.toNat
    | 0x3000 => g.cxQuota.toNat
    | 0x3008 => fields [(0, g.cxCtx), (8, g.cxOp)]
    | 0x3010 => fields [(0, g.cxBusy.toNat), (1, g.cxResult)]
    | 0x3100 => g.faDpa.toNat
    | 0x3108 => fields [(0, g.faCtx), (8, g.faSize), (10, g.faRel.toNat)]
    | 0x3110 => fields [(0, g.faBusy.toNat), (1, g.faResult)]
    | _ => if 8 ≤ slot ∧ slot ≤ 0x40 ∧ slot % 8 = 0 then g.shareOf (slot / 8 - 1) else 0

/-- The 4 or 8 bytes of a slot that an access names. -/
def slotBytes (x offset size : Nat) : Nat := if size = 8 then x % 2 ^ 64 else x / 2 ^ (8 * (offset % 8)) % 2 ^ 32

/-- R437: what a read on the BAR gives; none is an Unsupported Request. The staging area, and what no table lists, read as 0. -/
def State.readBar (s : State) (offset size : Nat) : Option Nat :=
  if inStaging offset size then some 0
  else if regAccess offset size then some (slotBytes (s.barSlot (offset / 8 * 8)) offset size)
  else none

/-- R437: what a read in the control processor's register space gives. -/
def State.readControl (s : State) (offset size : Nat) : Nat :=
  if regAccess offset size then slotBytes (s.controlSlot (offset / 8 * 8)) offset size else 0

end Sys2Proof.Machine
end

