-- ==== Sys2Proof/Machine/Dispatch.lean ====
section
/-! DEFINITION. The meaning of every instruction and of every step of another agent (spec 04 to 17): one arm for each row of
spec/opcode_table.json, each a call of its meaning. -/

namespace Sys2Proof.Machine

def exec (i : Instr) (s : State) : Host.Outcome State Fault Refusal :=
  match i with
  | .mov_16 m b d => Sys2Proof.Machine.execMov_16 m b d s
  | .movi_16 m vi d => Sys2Proof.Machine.execMovi_16 m vi d s
  | .addI32_16 m b d => Sys2Proof.Machine.execAddI32_16 m b d s
  | .addi_16 m vi d => Sys2Proof.Machine.execAddi_16 m vi d s
  | .subI32_16 m b d => Sys2Proof.Machine.execSubI32_16 m b d s
  | .mulI32_16 m b d => Sys2Proof.Machine.execMulI32_16 m b d s
  | .and_16 m b d => Sys2Proof.Machine.execAnd_16 m b d s
  | .or_16 m b d => Sys2Proof.Machine.execOr_16 m b d s
  | .xor_16 m b d => Sys2Proof.Machine.execXor_16 m b d s
  | .shl_16 m b d => Sys2Proof.Machine.execShl_16 m b d s
  | .shli_16 m vi d => Sys2Proof.Machine.execShli_16 m vi d s
  | .shri_16 m vi d => Sys2Proof.Machine.execShri_16 m vi d s
  | .sari_16 m vi d => Sys2Proof.Machine.execSari_16 m vi d s
  | .faddF32_16 m b d => Sys2Proof.Machine.execFaddF32_16 m b d s
  | .fmulF32_16 m b d => Sys2Proof.Machine.execFmulF32_16 m b d s
  | .fsubF32_16 m b d => Sys2Proof.Machine.execFsubF32_16 m b d s
  | .nop => Sys2Proof.Machine.execNop s
  | .nopMarker => Sys2Proof.Machine.execNopMarker s
  | .addI32 m b a d => Sys2Proof.Machine.execAddI32 m b a d s
  | .subI32 m b a d => Sys2Proof.Machine.execSubI32 m b a d s
  | .addsI32 m b a d => Sys2Proof.Machine.execAddsI32 m b a d s
  | .subsI32 m b a d => Sys2Proof.Machine.execSubsI32 m b a d s
  | .mulI32 m b a d => Sys2Proof.Machine.execMulI32 m b a d s
  | .mulhiI32 m b a d => Sys2Proof.Machine.execMulhiI32 m b a d s
  | .mulhiN32 m b a d => Sys2Proof.Machine.execMulhiN32 m b a d s
  | .mulwI32 m b a d => Sys2Proof.Machine.execMulwI32 m b a d s
  | .madI32 m b a d => Sys2Proof.Machine.execMadI32 m b a d s
  | .madwI32 m b a d => Sys2Proof.Machine.execMadwI32 m b a d s
  | .madwN32 m b a d => Sys2Proof.Machine.execMadwN32 m b a d s
  | .sadN32 m b a d => Sys2Proof.Machine.execSadN32 m b a d s
  | .minI32 m b a d => Sys2Proof.Machine.execMinI32 m b a d s
  | .maxI32 m b a d => Sys2Proof.Machine.execMaxI32 m b a d s
  | .minN32 m b a d => Sys2Proof.Machine.execMinN32 m b a d s
  | .maxN32 m b a d => Sys2Proof.Machine.execMaxN32 m b a d s
  | .and m b a d => Sys2Proof.Machine.execAnd m b a d s
  | .or m b a d => Sys2Proof.Machine.execOr m b a d s
  | .xor m b a d => Sys2Proof.Machine.execXor m b a d s
  | .andn m b a d => Sys2Proof.Machine.execAndn m b a d s
  | .shl m b a d => Sys2Proof.Machine.execShl m b a d s
  | .shr m b a d => Sys2Proof.Machine.execShr m b a d s
  | .sar m b a d => Sys2Proof.Machine.execSar m b a d s
  | .rol m b a d => Sys2Proof.Machine.execRol m b a d s
  | .popc m a d => Sys2Proof.Machine.execPopc m a d s
  | .clz m a d => Sys2Proof.Machine.execClz m a d s
  | .brev m a d => Sys2Proof.Machine.execBrev m a d s
  | .ffs m a d => Sys2Proof.Machine.execFfs m a d s
  | .bfxN32 m b a d => Sys2Proof.Machine.execBfxN32 m b a d s
  | .bfxI32 m b a d => Sys2Proof.Machine.execBfxI32 m b a d s
  | .bfi m b a d => Sys2Proof.Machine.execBfi m b a d s
  | .bysel m b a d => Sys2Proof.Machine.execBysel m b a d s
  | .absI32 m a d => Sys2Proof.Machine.execAbsI32 m a d s
  | .negI32 m a d => Sys2Proof.Machine.execNegI32 m a d s
  | .sext m b a d => Sys2Proof.Machine.execSext m b a d s
  | .zext m b a d => Sys2Proof.Machine.execZext m b a d s
  | .addI64 m b a d => Sys2Proof.Machine.execAddI64 m b a d s
  | .subI64 m b a d => Sys2Proof.Machine.execSubI64 m b a d s
  | .shlI64 m b a d => Sys2Proof.Machine.execShlI64 m b a d s
  | .shrN64 m b a d => Sys2Proof.Machine.execShrN64 m b a d s
  | .shrrI32 m b a d => Sys2Proof.Machine.execShrrI32 m b a d s
  | .shrrnI16 m b a d => Sys2Proof.Machine.execShrrnI16 m b a d s
  | .satnI16 m a d => Sys2Proof.Machine.execSatnI16 m a d s
  | .satnI8 m a d => Sys2Proof.Machine.execSatnI8 m a d s
  | .paddI16x2 m b a d => Sys2Proof.Machine.execPaddI16x2 m b a d s
  | .psubI16x2 m b a d => Sys2Proof.Machine.execPsubI16x2 m b a d s
  | .pmulI16x2 m b a d => Sys2Proof.Machine.execPmulI16x2 m b a d s
  | .pmaxI16x2 m b a d => Sys2Proof.Machine.execPmaxI16x2 m b a d s
  | .pmad2I16 m b a d => Sys2Proof.Machine.execPmad2I16 m b a d s
  | .pmad2xI16 m b a d => Sys2Proof.Machine.execPmad2xI16 m b a d s
  | .pmad4I8 m b a d => Sys2Proof.Machine.execPmad4I8 m b a d s
  | .pmad2N16 m b a d => Sys2Proof.Machine.execPmad2N16 m b a d s
  | .pack16 m b a d => Sys2Proof.Machine.execPack16 m b a d s
  | .unpkloI16 m a d => Sys2Proof.Machine.execUnpkloI16 m a d s
  | .unpkhiI16 m a d => Sys2Proof.Machine.execUnpkhiI16 m a d s
  | .pshrrI16x2 m b a d => Sys2Proof.Machine.execPshrrI16x2 m b a d s
  | .selP0P3 m n b a d => Sys2Proof.Machine.execSelP0P3 m n b a d s
  | .selP4P7 m n b a d => Sys2Proof.Machine.execSelP4P7 m n b a d s
  | .icmpI32 m c b a k p => Sys2Proof.Machine.execIcmpI32 m c b a k p s
  | .icmpN32 m c b a k p => Sys2Proof.Machine.execIcmpN32 m c b a k p s
  | .fcmpF32 m c b a k p => Sys2Proof.Machine.execFcmpF32 m c b a k p s
  | .icmpiI32 m c vi a k p => Sys2Proof.Machine.execIcmpiI32 m c vi a k p s
  | .plog m o b a d => Sys2Proof.Machine.execPlog m o b a d s
  | .movi m vi d => Sys2Proof.Machine.execMovi m vi d s
  | .movhi m vi d => Sys2Proof.Machine.execMovhi m vi d s
  | .addi m vi a d => Sys2Proof.Machine.execAddi m vi a d s
  | .andi m vi a d => Sys2Proof.Machine.execAndi m vi a d s
  | .ori m vi a d => Sys2Proof.Machine.execOri m vi a d s
  | .xori m vi a d => Sys2Proof.Machine.execXori m vi a d s
  | .shli m n a d => Sys2Proof.Machine.execShli m n a d s
  | .shri m n a d => Sys2Proof.Machine.execShri m n a d s
  | .sari m n a d => Sys2Proof.Machine.execSari m n a d s
  | .roli m n a d => Sys2Proof.Machine.execRoli m n a d s
  | .muli m vi a d => Sys2Proof.Machine.execMuli m vi a d s
  | .faddF32 m b a d => Sys2Proof.Machine.execFaddF32 m b a d s
  | .fsubF32 m b a d => Sys2Proof.Machine.execFsubF32 m b a d s
  | .fmulF32 m b a d => Sys2Proof.Machine.execFmulF32 m b a d s
  | .ffmaF32 m b a d => Sys2Proof.Machine.execFfmaF32 m b a d s
  | .fminF32 m b a d => Sys2Proof.Machine.execFminF32 m b a d s
  | .fmaxF32 m b a d => Sys2Proof.Machine.execFmaxF32 m b a d s
  | .fabsF32 m a d => Sys2Proof.Machine.execFabsF32 m a d s
  | .fnegF32 m a d => Sys2Proof.Machine.execFnegF32 m a d s
  | .haddBf16x2 m b a d => Sys2Proof.Machine.execHaddBf16x2 m b a d s
  | .hmulBf16x2 m b a d => Sys2Proof.Machine.execHmulBf16x2 m b a d s
  | .hfmaBf16x2 m b a d => Sys2Proof.Machine.execHfmaBf16x2 m b a d s
  | .hmaxBf16x2 m b a d => Sys2Proof.Machine.execHmaxBf16x2 m b a d s
  | .haddF16x2 m b a d => Sys2Proof.Machine.execHaddF16x2 m b a d s
  | .hmulF16x2 m b a d => Sys2Proof.Machine.execHmulF16x2 m b a d s
  | .hfmaF16x2 m b a d => Sys2Proof.Machine.execHfmaF16x2 m b a d s
  | .hmaxF16x2 m b a d => Sys2Proof.Machine.execHmaxF16x2 m b a d s
  | .rcpF32 m a d => Sys2Proof.Machine.execRcpF32 m a d s
  | .rsqF32 m a d => Sys2Proof.Machine.execRsqF32 m a d s
  | .exp2F32 m a d => Sys2Proof.Machine.execExp2F32 m a d s
  | .log2F32 m a d => Sys2Proof.Machine.execLog2F32 m a d s
  | .fdivF32 m b a d => Sys2Proof.Machine.execFdivF32 m b a d s
  | .sqrtF32 m a d => Sys2Proof.Machine.execSqrtF32 m a d s
  | .frndF32 m a d => Sys2Proof.Machine.execFrndF32 m a d s
  | .fclsF32 m a d => Sys2Proof.Machine.execFclsF32 m a d s
  | .cvt m u r t a d => Sys2Proof.Machine.execCvt m u r t a d s
  | .cvtz m u r t a d => Sys2Proof.Machine.execCvtz m u r t a d s
  | .qntFp4b8 m b a d => Sys2Proof.Machine.execQntFp4b8 m b a d s
  | .qntMxfp4 m a d => Sys2Proof.Machine.execQntMxfp4 m a d s
  | .dqntFp4b8 m b a d => Sys2Proof.Machine.execDqntFp4b8 m b a d s
  | .lxchPick m b a d => Sys2Proof.Machine.execLxchPick m b a d s
  | .lxchRotr m b a d => Sys2Proof.Machine.execLxchRotr m b a d s
  | .lxchRotl m b a d => Sys2Proof.Machine.execLxchRotl m b a d s
  | .lxchRev m b a d => Sys2Proof.Machine.execLxchRev m b a d s
  | .slideUp1H m b a d => Sys2Proof.Machine.execSlideUp1H m b a d s
  | .slideDn1H m b a d => Sys2Proof.Machine.execSlideDn1H m b a d s
  | .slideUp1W m b a d => Sys2Proof.Machine.execSlideUp1W m b a d s
  | .slideDn1W m b a d => Sys2Proof.Machine.execSlideDn1W m b a d s
  | .lmaskSet m a d => Sys2Proof.Machine.execLmaskSet m a d s
  | .lmaskCnt m a d => Sys2Proof.Machine.execLmaskCnt m a d s
  | .lmaskPfx m a d => Sys2Proof.Machine.execLmaskPfx m a d s
  | .lmaskFirst m a d => Sys2Proof.Machine.execLmaskFirst m a d s
  | .gredAddI32 m a d => Sys2Proof.Machine.execGredAddI32 m a d s
  | .gredMaxI32 m a d => Sys2Proof.Machine.execGredMaxI32 m a d s
  | .gredMinI32 m a d => Sys2Proof.Machine.execGredMinI32 m a d s
  | .gredAddF32 m a d => Sys2Proof.Machine.execGredAddF32 m a d s
  | .bra m o => Sys2Proof.Machine.execBra m o s
  | .brp m o n p => Sys2Proof.Machine.execBrp m o n p s
  | .call m o => Sys2Proof.Machine.execCall m o s
  | .ret m => Sys2Proof.Machine.execRet m s
  | .jtab m n a => Sys2Proof.Machine.execJtab m n a s
  | .loop m o c => Sys2Proof.Machine.execLoop m o c s
  | .exit m => Sys2Proof.Machine.execExit m s
  | .nop32 m => Sys2Proof.Machine.execNop32 m s
  | .waitall m => Sys2Proof.Machine.execWaitall m s
  | .yield m => Sys2Proof.Machine.execYield m s
  | .trap m vi => Sys2Proof.Machine.execTrap m vi s
  | .rft m => Sys2Proof.Machine.execRft m s
  | .gets m e d => Sys2Proof.Machine.execGets m e d s
  | .sets m e a => Sys2Proof.Machine.execSets m e a s
  | .mappg m b a d => Sys2Proof.Machine.execMappg m b a d s
  | .tlbinvPage m a => Sys2Proof.Machine.execTlbinvPage m a s
  | .tlbinvCtx m => Sys2Proof.Machine.execTlbinvCtx m s
  | .halt m => Sys2Proof.Machine.execHalt m s
  | .ld m x o h c z a d => Sys2Proof.Machine.execLd m x o h c z a d s
  | .st m o h c z a v => Sys2Proof.Machine.execSt m o h c z a v s
  | .lds m o h c z a d => Sys2Proof.Machine.execLds m o h c z a d s
  | .ldx m x o h c z a d => Sys2Proof.Machine.execLdx m x o h c z a d s
  | .pref m h c a => Sys2Proof.Machine.execPref m h c a s
  | .ptrmk m b a d => Sys2Proof.Machine.execPtrmk m b a d s
  | .ptrsp m a d => Sys2Proof.Machine.execPtrsp m a d s
  | .ptrrk m b a d => Sys2Proof.Machine.execPtrrk m b a d s
  | .ptroff m b a d => Sys2Proof.Machine.execPtroff m b a d s
  | .fence m k c => Sys2Proof.Machine.execFence m k c s
  | .atomAddI32 m c v a d => Sys2Proof.Machine.execAtomAddI32 m c v a d s
  | .atomMinI32 m c v a d => Sys2Proof.Machine.execAtomMinI32 m c v a d s
  | .atomMaxI32 m c v a d => Sys2Proof.Machine.execAtomMaxI32 m c v a d s
  | .atomMinN32 m c v a d => Sys2Proof.Machine.execAtomMinN32 m c v a d s
  | .atomMaxN32 m c v a d => Sys2Proof.Machine.execAtomMaxN32 m c v a d s
  | .atomAnd m c v a d => Sys2Proof.Machine.execAtomAnd m c v a d s
  | .atomOr m c v a d => Sys2Proof.Machine.execAtomOr m c v a d s
  | .atomXor m c v a d => Sys2Proof.Machine.execAtomXor m c v a d s
  | .atomXchg m c v a d => Sys2Proof.Machine.execAtomXchg m c v a d s
  | .atomCas m c v a d => Sys2Proof.Machine.execAtomCas m c v a d s
  | .atomAddI64 m c v a d => Sys2Proof.Machine.execAtomAddI64 m c v a d s
  | .atomCasI64 m c v a d => Sys2Proof.Machine.execAtomCasI64 m c v a d s
  | .atomFaddF32 m c v a d => Sys2Proof.Machine.execAtomFaddF32 m c v a d s
  | .redAddI32 m c v a => Sys2Proof.Machine.execRedAddI32 m c v a s
  | .redAddI64 m c v a => Sys2Proof.Machine.execRedAddI64 m c v a s
  | .redMinI32 m c v a => Sys2Proof.Machine.execRedMinI32 m c v a s
  | .redMaxI32 m c v a => Sys2Proof.Machine.execRedMaxI32 m c v a s
  | .redMinN32 m c v a => Sys2Proof.Machine.execRedMinN32 m c v a s
  | .redMaxN32 m c v a => Sys2Proof.Machine.execRedMaxN32 m c v a s
  | .redAnd m c v a => Sys2Proof.Machine.execRedAnd m c v a s
  | .redOr m c v a => Sys2Proof.Machine.execRedOr m c v a s
  | .redXor m c v a => Sys2Proof.Machine.execRedXor m c v a s
  | .redFaddF32 m c v a => Sys2Proof.Machine.execRedFaddF32 m c v a s
  | .redFaddBf16x2 m c v a => Sys2Proof.Machine.execRedFaddBf16x2 m c v a s
  | .redFaddFp8 m c v a => Sys2Proof.Machine.execRedFaddFp8 m c v a s
  | .barArv m vi d => Sys2Proof.Machine.execBarArv m vi d s
  | .barArvdrop m vi d => Sys2Proof.Machine.execBarArvdrop m vi d s
  | .barWait m vi a => Sys2Proof.Machine.execBarWait m vi a s
  | .barSync m vi => Sys2Proof.Machine.execBarSync m vi s
  | .binit m vi a => Sys2Proof.Machine.execBinit m vi a s
  | .attach m a d => Sys2Proof.Machine.execAttach m a d s
  | .detach m => Sys2Proof.Machine.execDetach m s
  | .trigger m => Sys2Proof.Machine.execTrigger m s
  | .qpush m a d => Sys2Proof.Machine.execQpush m a d s
  | .qpop m a d => Sys2Proof.Machine.execQpop m a d s
  | .qfree m a => Sys2Proof.Machine.execQfree m a s
  | .publish m a => Sys2Proof.Machine.execPublish m a s
  | .bcopyG2l m t c a d => Sys2Proof.Machine.execBcopyG2l m t c a d s
  | .bcopyL2g m t c a d => Sys2Proof.Machine.execBcopyL2g m t c a d s
  | .lcopy m vi a v => Sys2Proof.Machine.execLcopy m vi a v s
  | .cseal m n => Sys2Proof.Machine.execCseal m n s
  | .cwait m n => Sys2Proof.Machine.execCwait m n s
  | .tsetup m t a => Sys2Proof.Machine.execTsetup m t a s
  | .tfree m t => Sys2Proof.Machine.execTfree m t s
  | .tstate m t d => Sys2Proof.Machine.execTstate m t d s
  | .tdrain m t => Sys2Proof.Machine.execTdrain m t s
  | .fork m b a => Sys2Proof.Machine.execFork m b a s
  | .rdv m d => Sys2Proof.Machine.execRdv m d s
  | .endseq m => Sys2Proof.Machine.execEndseq m s
  | .coll m vi t a d => Sys2Proof.Machine.execColl m vi t a d s
  | .dpost m vi a d => Sys2Proof.Machine.execDpost m vi a d s
  | .mma m p z f w t c => Sys2Proof.Machine.execMma m p z f w t c s
  | .mldb m w a => Sys2Proof.Machine.execMldb m w a s
  | .acc2t m f u x c => Sys2Proof.Machine.execAcc2t m f u x c s
  | .t2acc m f x c => Sys2Proof.Machine.execT2acc m f x c s
  | .acc2v m f u q x c => Sys2Proof.Machine.execAcc2v m f u q x c s
  | .v2acc m f q x c => Sys2Proof.Machine.execV2acc m f q x c s
  | .mzero m c => Sys2Proof.Machine.execMzero m c s
  | .mperm m a => Sys2Proof.Machine.execMperm m a s
  | .mbandW m vi a => Sys2Proof.Machine.execMbandW m vi a s
  | .mbandA m vi a => Sys2Proof.Machine.execMbandA m vi a s
  | .spillExchange core grp => Sys2Proof.Machine.execSpillExchange core grp s
  | .resultWriteback op => Sys2Proof.Machine.execResultWriteback op s
  | .deferredCauseTake core grp slot => Sys2Proof.Machine.execDeferredCauseTake core grp slot s
  | .groupUnpark core grp => Sys2Proof.Machine.execGroupUnpark core grp s
  | .trapEntry core grp => Sys2Proof.Machine.execTrapEntry core grp s
  | .yieldEnd core grp => Sys2Proof.Machine.execYieldEnd core grp s
  | .waitallComplete core grp => Sys2Proof.Machine.execWaitallComplete core grp s
  | .fenceComplete core grp => Sys2Proof.Machine.execFenceComplete core grp s
  | .mappgComplete op => Sys2Proof.Machine.execMappgComplete op s
  | .tlbinvComplete op => Sys2Proof.Machine.execTlbinvComplete op s
  | .groupEnd core grp => Sys2Proof.Machine.execGroupEnd core grp s
  | .detachRetire core grp => Sys2Proof.Machine.execDetachRetire core grp s
  | .triggerCount core grp => Sys2Proof.Machine.execTriggerCount core grp s
  | .qpushGrant queue => Sys2Proof.Machine.execQpushGrant queue s
  | .publishAccept core grp slot => Sys2Proof.Machine.execPublishAccept core grp slot s
  | .publishCounterWrite window => Sys2Proof.Machine.execPublishCounterWrite window s
  | .barrierBankUpdate core offset count => Sys2Proof.Machine.execBarrierBankUpdate core offset count s
  | .matrixQueueAccept core => Sys2Proof.Machine.execMatrixQueueAccept core s
  | .mmaPerform core => Sys2Proof.Machine.execMmaPerform core s
  | .mldbComplete core => Sys2Proof.Machine.execMldbComplete core s
  | .maccPerform core => Sys2Proof.Machine.execMaccPerform core s
  | .mctlPerform core => Sys2Proof.Machine.execMctlPerform core s
  | .mpermDataArrive op => Sys2Proof.Machine.execMpermDataArrive op s
  | .acc2vComplete core grp slot => Sys2Proof.Machine.execAcc2vComplete core grp slot s
  | .narrowModeChange core => Sys2Proof.Machine.execNarrowModeChange core s
  | .tfreeComplete core tile => Sys2Proof.Machine.execTfreeComplete core tile s
  | .copyQueueAccept core => Sys2Proof.Machine.execCopyQueueAccept core s
  | .bcopyComplete op => Sys2Proof.Machine.execBcopyComplete op s
  | .lcopyComplete op => Sys2Proof.Machine.execLcopyComplete op s
  | .cwaitComplete core unit => Sys2Proof.Machine.execCwaitComplete core unit s
  | .sequencerEnd core seq => Sys2Proof.Machine.execSequencerEnd core seq s
  | .rdvComplete core grp => Sys2Proof.Machine.execRdvComplete core grp s
  | .collMemberAccept core wg => Sys2Proof.Machine.execCollMemberAccept core wg s
  | .collJoin mem => Sys2Proof.Machine.execCollJoin mem s
  | .collStart hub => Sys2Proof.Machine.execCollStart hub s
  | .startNotice mem => Sys2Proof.Machine.execStartNotice mem s
  | .collMemberComplete mem => Sys2Proof.Machine.execCollMemberComplete mem s
  | .collLinkFail kind index lane => Sys2Proof.Machine.execCollLinkFail kind index lane s
  | .spanHandshake comm seq pkg => Sys2Proof.Machine.execSpanHandshake comm seq pkg s
  | .dpostRecordRead mem => Sys2Proof.Machine.execDpostRecordRead mem s
  | .exchangePost hub mem => Sys2Proof.Machine.execExchangePost hub mem s
  | .calendarIssue hub set => Sys2Proof.Machine.execCalendarIssue hub set s
  | .calendarReceive msg => Sys2Proof.Machine.execCalendarReceive msg s
  | .calendarAck msg => Sys2Proof.Machine.execCalendarAck msg s
  | .goMessage msg => Sys2Proof.Machine.execGoMessage msg s
  | .exchangePhaseStart mem phase => Sys2Proof.Machine.execExchangePhaseStart mem phase s
  | .exchangeComplete mem => Sys2Proof.Machine.execExchangeComplete mem s
  | .issueNotice hub set => Sys2Proof.Machine.execIssueNotice hub set s
  | .goNotice hub set => Sys2Proof.Machine.execGoNotice hub set s
  | .standbyIssueTimeout set => Sys2Proof.Machine.execStandbyIssueTimeout set s
  | .standbyGoTimeout set => Sys2Proof.Machine.execStandbyGoTimeout set s
  | .standbyNogoTimeout set => Sys2Proof.Machine.execStandbyNogoTimeout set s
  | .getsMessage msg => Sys2Proof.Machine.execGetsMessage msg s
  | .getx msg => Sys2Proof.Machine.execGetx msg s
  | .preq msg => Sys2Proof.Machine.execPreq msg s
  | .done msg => Sys2Proof.Machine.execDone msg s
  | .act msg => Sys2Proof.Machine.execAct msg s
  | .deact msg => Sys2Proof.Machine.execDeact msg s
  | .recr msg => Sys2Proof.Machine.execRecr msg s
  | .binv msg => Sys2Proof.Machine.execBinv msg s
  | .nack msg => Sys2Proof.Machine.execNack msg s
  | .tok msg => Sys2Proof.Machine.execTok msg s
  | .rack msg => Sys2Proof.Machine.execRack msg s
  | .data msg => Sys2Proof.Machine.execData msg s
  | .wb msg => Sys2Proof.Machine.execWb msg s
  | .attemptDeadline miss => Sys2Proof.Machine.execAttemptDeadline miss s
  | .recreateTimeout sector => Sys2Proof.Machine.execRecreateTimeout sector s
  | .recreateDeferred sector => Sys2Proof.Machine.execRecreateDeferred sector s
  | .deactMemoryExpire holder sector => Sys2Proof.Machine.execDeactMemoryExpire holder sector s
  | .messageExpire msg => Sys2Proof.Machine.execMessageExpire msg s
  | .slicePowerGate die slice => Sys2Proof.Machine.execSlicePowerGate die slice s
  | .sliceWake die slice => Sys2Proof.Machine.execSliceWake die slice s
  | .pageWalkComplete die walk => Sys2Proof.Machine.execPageWalkComplete die walk s
  | .wayCleanComplete die way => Sys2Proof.Machine.execWayCleanComplete die way s
  | .hostMemrd sector mval => Sys2Proof.Machine.execHostMemrd sector mval s
  | .hostMemwr sector bytes => Sys2Proof.Machine.execHostMemwr sector bytes s
  | .hostBiResponse sector inval bytes => Sys2Proof.Machine.execHostBiResponse sector inval bytes s
  | .hostSnoop sector inval => Sys2Proof.Machine.execHostSnoop sector inval s
  | .cxlCacheResponse sector own bytes => Sys2Proof.Machine.execCxlCacheResponse sector own bytes s
  | .lqTailWrite ctx cls val => Sys2Proof.Machine.execLqTailWrite ctx cls val s
  | .lqBaseWrite ctx cls val => Sys2Proof.Machine.execLqBaseWrite ctx cls val s
  | .lqSizeWrite ctx cls val => Sys2Proof.Machine.execLqSizeWrite ctx cls val s
  | .launchAdmit ctx cls => Sys2Proof.Machine.execLaunchAdmit ctx cls s
  | .gangPlace => Sys2Proof.Machine.execGangPlace s
  | .queueDispatch launch => Sys2Proof.Machine.execQueueDispatch launch s
  | .quantumExpire core wg => Sys2Proof.Machine.execQuantumExpire core wg s
  | .shrinkRequest core wg need => Sys2Proof.Machine.execShrinkRequest core wg need s
  | .shrinkTimeout => Sys2Proof.Machine.execShrinkTimeout s
  | .programLoad core ctx prog => Sys2Proof.Machine.execProgramLoad core ctx prog s
  | .preemptRequest core ctx => Sys2Proof.Machine.execPreemptRequest core ctx s
  | .contextSave core => Sys2Proof.Machine.execContextSave core s
  | .redirectApply core => Sys2Proof.Machine.execRedirectApply core s
  | .imageToBacking core slot => Sys2Proof.Machine.execImageToBacking core slot s
  | .lsHalfEvict core half => Sys2Proof.Machine.execLsHalfEvict core half s
  | .contextRestore core ctx => Sys2Proof.Machine.execContextRestore core ctx s
  | .launchComplete launch => Sys2Proof.Machine.execLaunchComplete launch s
  | .ctxKill val => Sys2Proof.Machine.execCtxKill val s
  | .ctxKillComplete => Sys2Proof.Machine.execCtxKillComplete s
  | .cxCreate => Sys2Proof.Machine.execCxCreate s
  | .cxLoadStack => Sys2Proof.Machine.execCxLoadStack s
  | .faAssign => Sys2Proof.Machine.execFaAssign s
  | .faRelease => Sys2Proof.Machine.execFaRelease s
  | .frameZeroComplete => Sys2Proof.Machine.execFrameZeroComplete s
  | .commOpen val => Sys2Proof.Machine.execCommOpen val s
  | .commClose val => Sys2Proof.Machine.execCommClose val s
  | .nqHeadWrite val => Sys2Proof.Machine.execNqHeadWrite val s
  | .pwRegister window val => Sys2Proof.Machine.execPwRegister window val s
  | .pwUnregister window val => Sys2Proof.Machine.execPwUnregister window val s
  | .pwUnregisterComplete window => Sys2Proof.Machine.execPwUnregisterComplete window s
  | .registerWrite space offset size val => Sys2Proof.Machine.execRegisterWrite space offset size val s
  | .modBoot len => Sys2Proof.Machine.execModBoot len s
  | .warmReset => Sys2Proof.Machine.execWarmReset s
  | .coldReset => Sys2Proof.Machine.execColdReset s
  | .spdmGetMeasurements nonce => Sys2Proof.Machine.execSpdmGetMeasurements nonce s
  | .ucieModuleFail module => Sys2Proof.Machine.execUcieModuleFail module s
  | .hostLinkLost => Sys2Proof.Machine.execHostLinkLost s
  | .ppEnable port => Sys2Proof.Machine.execPpEnable port s
  | .ppRoll port => Sys2Proof.Machine.execPpRoll port s
  | .keyCounterLimit port => Sys2Proof.Machine.execKeyCounterLimit port s
  | .flitData port seq kidx ok ack => Sys2Proof.Machine.execFlitData port seq kidx ok ack s
  | .flitIdle port ack => Sys2Proof.Machine.execFlitIdle port ack s
  | .flitNak port ack => Sys2Proof.Machine.execFlitNak port ack s
  | .flitKeyRetire port seq kidx ok ack => Sys2Proof.Machine.execFlitKeyRetire port seq kidx ok ack s
  | .flitKeyExchange port bytes => Sys2Proof.Machine.execFlitKeyExchange port bytes s
  | .peerSilenceTimeout port => Sys2Proof.Machine.execPeerSilenceTimeout port s
  | .peerLaneLoss port lane => Sys2Proof.Machine.execPeerLaneLoss port lane s
  | .aszCapWrite val => Sys2Proof.Machine.execAszCapWrite val s
  | .powerEstimate watts => Sys2Proof.Machine.execPowerEstimate watts s
  | .sensorOvertemp die celsius => Sys2Proof.Machine.execSensorOvertemp die celsius s
  | .emergencyReselect => Sys2Proof.Machine.execEmergencyReselect s
  | .emergencyClear die => Sys2Proof.Machine.execEmergencyClear die s
  | .watchdogExpire core => Sys2Proof.Machine.execWatchdogExpire core s
  | .machineStopCause cause ctx die core => Sys2Proof.Machine.execMachineStopCause cause ctx die core s
  | .notAnInstruction cause => Sys2Proof.Machine.execNotAnInstruction cause s
  | .homeSectorRead sector => Sys2Proof.Machine.execHomeSectorRead sector s
  | .writeAcknowledged op => Sys2Proof.Machine.execWriteAcknowledged op s
  | .wayMaskChange die ctx mask => Sys2Proof.Machine.execWayMaskChange die ctx mask s
  | .saveSlotZeroed core slot => Sys2Proof.Machine.execSaveSlotZeroed core slot s
  | .peerPortTrained port => Sys2Proof.Machine.execPeerPortTrained port s
  | .inputPowerExcess => Sys2Proof.Machine.execInputPowerExcess s
  | .bundleVerifyComplete => Sys2Proof.Machine.execBundleVerifyComplete s
  | .gazetteerWrite group value => Sys2Proof.Machine.execGazetteerWrite group value s
  | .surveyAccessRefused resource => Sys2Proof.Machine.execSurveyAccessRefused resource s
  | .ideKmRequest bytes => Sys2Proof.Machine.execIdeKmRequest bytes s

end Sys2Proof.Machine
end

