-- ==== Sys2Proof/Machine/Run.lean ====
section
/-! DEFINITION. How the module runs: fetching (R67, R68, R88), issue by quarters and sequencers (R27, R253, R381, R382), the passage of
local time (R374, R378), the steps of the module's own agents that may be due, and whose turn it is. -/

namespace Sys2Proof.Machine

open Host (Outcome)

/-! ### Fetch (R67, R68, R87) -/

/-- R87: second parcels that tell whether any completes a first one: every variant in the high bits, and the other bits zero or one of them set. -/
def probes : List Parcel :=
  (List.range 16).flatMap fun h => (0 :: (List.range 12).map fun j => 2 ^ j).map fun x => BitVec.ofNat 16 (4096 * h + x)

/-- R87, R88: whether a first parcel is rejected with a cause of a kind whatever follows it. -/
def firstShows (p0 : Parcel) (f : BitVec 8 → Bool) : Bool :=
  probes.all fun p1 =>
    match decode p0 p1 with
    | .reject c => f c
    | .instr _ _ => false

/-- R86, R88: the cause of a 32-bit instruction whose second parcel lies outside the region: the lowest of 0x07 and what its first parcel shows
(log 102): a reserved major, a field that no instruction of the major can have, or a supervisor-only major in user mode. -/
def cutCause (p0 : Parcel) (user : Bool) : BitVec 8 :=
  let major := p0.toNat / 4 % 128
  if firstShows p0 fun c => decide (c = 1) then 0x01
  else if firstShows p0 fun c => decide (c = 1 ∨ c = 2) then 0x02
  else if user && decide (0x44 ≤ major ∧ major ≤ 0x46) then 0x05
  else 0x07

/-- R68: what is fetched at a PC: an instruction that lies in the region whole, or the cause. -/
def Core.fetch (k : Core) (r : Nat × Nat) (pc : Pc) (user : Bool) : Decoded :=
  let n := pc.toNat
  if inRegion r n 2 then decode (k.parcel n) (k.parcel (n + 1))
  else if inRegion r n 1 then
    if isWide (k.parcel n).toNat then .reject (cutCause (k.parcel n) user) else decode (k.parcel n) 0
  else .reject 0x07

/-- R68: the parcels that a sequencer may fetch. DESIGN CHOICE (log 94): once the workgroup of its owner has ended a sequencer has no region left, and
the fetch stops it with 0x07. -/
def State.seqRegion (s : State) (c : Nat) (q : Sequencer) : Nat × Nat :=
  if q.sup then (supBase, supBase + 8192)
  else match s.wgOf c q.wg with
    | some w => (w.rbase, w.rbase + w.rlen)
    | none => (0, 0)

/-- What a split or a sequencer fetches. -/
def State.fetch (s : State) (who : Issuer) : Option Decoded :=
  match who with
  | .split c g k => (s.iss c g k).map fun I => (s.core c).fetch (s.region c I.gr) I.sp.pc (!I.gr.sup)
  | .seq c cp =>
    let q := (s.core c).seqOf cp
    if q.run = .running then some ((s.core c).fetch (s.seqRegion c q) q.pc false) else none

/-! ### Issue (R27, R253, R381) -/

/-- Changes the state of an answer. -/
def thenDo (f : State → State) : Outcome State Fault Refusal → Outcome State Fault Refusal
  | .next s => .next (f s)
  | .fault r => .fault r
  | .refused r => .refused r

def Issuer.core : Issuer → Nat
  | .split c _ _ => c
  | .seq c _ => c

/-- The identity of the group that issues, which a YIELD's noted set names. -/
def State.uidOf (s : State) (who : Issuer) : Option Nat :=
  match who with
  | .split c g _ => (s.grp c g).map fun x => x.uid
  | .seq _ _ => none

/-- Whether an issuer is left waiting with its instruction unissued (R27). -/
def Wait.unissued : Wait → Bool
  | .tile _ | .fill _ | .matrixQueue | .copyQueue _ | .walk _ | .acquire => true
  | _ => false

def State.unissued (s : State) (who : Issuer) : Bool :=
  match who with
  | .split c g k => ((s.iss c g k).map fun I => I.sp.wait.unissued).getD false
  | .seq c cp => ((s.core c).seqOf cp).wait.unissued

/-- R151, R460: what an issue means for others: a noted group has issued, or waits, and where an instruction has issued the core has made progress. -/
def State.issuedBy (who : Issuer) (uid : Option Nat) (s : State) : State :=
  let s : State := { s with cur := none }
  if s.unissued who then s.yieldUpdate who.core none
  else (s.setCore who.core { s.core who.core with progress := s.clkOf who.core }).yieldUpdate who.core uid

/-- One issue: the instruction that the issuer fetches is executed, or its cause is taken. -/
def State.issue (s : State) (who : Issuer) : Outcome State Fault Refusal :=
  match s.fetch who with
  | none => .next s
  | some d =>
    let at_ : State := { s with cur := some who }
    thenDo (State.issuedBy who (s.uidOf who)) (match d with
      | .instr i _ => exec i at_
      | .reject c => execNotAnInstruction c at_)

/-- R27, R142, R297, R381: the issue slot of a group: a slot already spoken for, an exchange, whose first slot this is, a deferred cause (R155), or
an issue. -/
def State.issueGroup (s : State) (c g : Nat) : Outcome State Fault Refusal :=
  match s.grp c g with
  | none => .next s
  | some x =>
    if x.stall ≠ 0 then .next (s.setGrp c g x.idle)
    else if x.exchangeDue.isSome then thenDo (fun s => s.modGrp c g Group.idle) (execSpillExchange c g s)
    else match s.chooseSlot c x with
      | none => .next s
      | some k => match x.slots.look k with
        | none => .next s
        | some sp => if (x.deferredFor sp).isSome then execDeferredCauseTake c g k s else s.issue (.split c g k)

/-- R253: whether a sequencer can issue. -/
def State.seqReady (s : State) (c : Nat) (cp : Bool) : Bool :=
  let k := s.core c
  let q := k.seqOf cp
  decide (q.run = .running) && !k.halted && !k.gated
    && match q.wait with
      | .none => true
      | .tile e => let t := k.tiles.get {} e; !t.valid || decide (t.state = .ready)
      | .fill e => let t := k.tiles.get {} e; !t.valid || decide (t.state = .empty ∨ t.state = .filling)
      | .walk pages => s.walksOver c q.ctx pages
      | _ => false

/-- R381: the group that a quarter takes: the first ready one after the one it took last. -/
def State.quarterTakes (s : State) (c q : Nat) : Option Nat :=
  let k := s.core c
  let last := k.lastTaken.get 11 q
  ((List.range 12).map fun i => 12 * q + (last + 1 + i) % 12).find? fun g =>
    match k.groups.look g with
    | some x => s.groupReady c x
    | none => false

/-- Whether unit `u` of a core (quarters 0 to 3, the matrix sequencer, the copy sequencer) can issue. -/
def State.unitReady (s : State) (c u : Nat) : Bool :=
  if u < 4 then (s.quarterTakes c u).isSome else s.seqReady c (decide (u = 5))

/-- The unit that issues next: the first ready one after the unit that issued last, by core and unit. -/
def State.nextUnit (s : State) : Option Nat :=
  let all := s.cores.flatMap fun p => (List.range 6).map fun u => 6 * p.1 + u
  let ok (n : Nat) : Bool := s.unitReady (n / 6) (n % 6)
  ((all.filter fun n => decide (s.lastUnit < n)) ++ all.filter fun n => decide (n ≤ s.lastUnit)).find? ok

/-- A unit issues. -/
def State.issueUnit (s : State) (n : Nat) : Outcome State Fault Refusal :=
  let c := n / 6
  let u := n % 6
  let s : State := { s with lastUnit := n, issued := true }
  if u < 4 then
    match s.quarterTakes c u with
    | some g => (s.setCore c { s.core c with lastTaken := (s.core c).lastTaken.put u (g % 12) }).issueGroup c g
    | none => .next s
  else s.issue (.seq c (decide (u = 5)))

/-! ### Local time (R3, R374, R378) -/

/-- R374, R378: what local time counts on the cores: a core for each context and class that holds it, and the quanta. -/
def State.advance (s : State) (dt : Nat) : State :=
  let s := (List.range 8).foldl (fun s d => s.setDie d { s.die d with clk := (s.die d).clk + dt }) s
  let used := s.cores.flatMap fun p => (p.2.wgs.map fun w => (w.2.ctx, w.2.cls)).eraseDups
  let s := used.foldl (fun s u =>
    let x := s.ctx u.1
    s.setCtx u.1 { x with vtime := x.vtime.put u.2 (x.vtime.get 0 u.2 + dt) }) s
  { s with cores := s.cores.mapVals fun _ k =>
      { k with wgs := k.wgs.mapVals fun _ w => { w with qcount := w.qcount + dt } } }

/-! ### The steps that may be due -/

/-- The step of an agent. -/
def State.runDue (s : State) : Due → Outcome State Fault Refusal
  | .spillExchange core grp => execSpillExchange core grp s
  | .groupUnpark core grp => execGroupUnpark core grp s
  | .trapEntry core grp => execTrapEntry core grp s
  | .yieldEnd core grp => execYieldEnd core grp s
  | .waitallComplete core grp => execWaitallComplete core grp s
  | .fenceComplete core grp => execFenceComplete core grp s
  | .groupEnd core grp => execGroupEnd core grp s
  | .detachRetire core grp => execDetachRetire core grp s
  | .triggerCount core grp => execTriggerCount core grp s
  | .rdvComplete core grp => execRdvComplete core grp s
  | .resultWriteback op => execResultWriteback op s
  | .mappgComplete op => execMappgComplete op s
  | .tlbinvComplete op => execTlbinvComplete op s
  | .mpermDataArrive op => execMpermDataArrive op s
  | .bcopyComplete op => execBcopyComplete op s
  | .lcopyComplete op => execLcopyComplete op s
  | .writeAcknowledged op => execWriteAcknowledged op s
  | .deferredCauseTake core grp slot => execDeferredCauseTake core grp slot s
  | .publishAccept core grp slot => execPublishAccept core grp slot s
  | .acc2vComplete core grp slot => execAcc2vComplete core grp slot s
  | .qpushGrant queue => execQpushGrant queue s
  | .publishCounterWrite window => execPublishCounterWrite window s
  | .pwUnregisterComplete window => execPwUnregisterComplete window s
  | .barrierBankUpdate core offset count => execBarrierBankUpdate core offset count s
  | .matrixQueueAccept core => execMatrixQueueAccept core s
  | .mmaPerform core => execMmaPerform core s
  | .mldbComplete core => execMldbComplete core s
  | .maccPerform core => execMaccPerform core s
  | .mctlPerform core => execMctlPerform core s
  | .narrowModeChange core => execNarrowModeChange core s
  | .copyQueueAccept core => execCopyQueueAccept core s
  | .contextSave core => execContextSave core s
  | .redirectApply core => execRedirectApply core s
  | .tfreeComplete core tile => execTfreeComplete core tile s
  | .cwaitComplete core unit => execCwaitComplete core unit s
  | .sequencerEnd core seq => execSequencerEnd core seq s
  | .collMemberAccept core wg => execCollMemberAccept core wg s
  | .quantumExpire core wg => execQuantumExpire core wg s
  | .collJoin mem => execCollJoin mem s
  | .startNotice mem => execStartNotice mem s
  | .collMemberComplete mem => execCollMemberComplete mem s
  | .dpostRecordRead mem => execDpostRecordRead mem s
  | .exchangeComplete mem => execExchangeComplete mem s
  | .collStart hub => execCollStart hub s
  | .exchangePost hub mem => execExchangePost hub mem s
  | .calendarIssue hub set => execCalendarIssue hub set s
  | .issueNotice hub set => execIssueNotice hub set s
  | .goNotice hub set => execGoNotice hub set s
  | .calendarReceive msg => execCalendarReceive msg s
  | .calendarAck msg => execCalendarAck msg s
  | .goMessage msg => execGoMessage msg s
  | .getsMessage msg => execGetsMessage msg s
  | .getx msg => execGetx msg s
  | .preq msg => execPreq msg s
  | .done msg => execDone msg s
  | .act msg => execAct msg s
  | .deact msg => execDeact msg s
  | .recr msg => execRecr msg s
  | .binv msg => execBinv msg s
  | .nack msg => execNack msg s
  | .tok msg => execTok msg s
  | .rack msg => execRack msg s
  | .data msg => execData msg s
  | .wb msg => execWb msg s
  | .messageExpire msg => execMessageExpire msg s
  | .exchangePhaseStart mem phase => execExchangePhaseStart mem phase s
  | .standbyIssueTimeout set => execStandbyIssueTimeout set s
  | .standbyGoTimeout set => execStandbyGoTimeout set s
  | .standbyNogoTimeout set => execStandbyNogoTimeout set s
  | .attemptDeadline miss => execAttemptDeadline miss s
  | .recreateTimeout sector => execRecreateTimeout sector s
  | .recreateDeferred sector => execRecreateDeferred sector s
  | .homeSectorRead sector => execHomeSectorRead sector s
  | .deactMemoryExpire holder sector => execDeactMemoryExpire holder sector s
  | .sliceWake die slice => execSliceWake die slice s
  | .pageWalkComplete die walk => execPageWalkComplete die walk s
  | .wayCleanComplete die way => execWayCleanComplete die way s
  | .launchAdmit ctx cls => execLaunchAdmit ctx cls s
  | .gangPlace => execGangPlace s
  | .shrinkTimeout => execShrinkTimeout s
  | .ctxKillComplete => execCtxKillComplete s
  | .cxCreate => execCxCreate s
  | .cxLoadStack => execCxLoadStack s
  | .faAssign => execFaAssign s
  | .faRelease => execFaRelease s
  | .frameZeroComplete => execFrameZeroComplete s
  | .bundleVerifyComplete => execBundleVerifyComplete s
  | .queueDispatch launch => execQueueDispatch launch s
  | .launchComplete launch => execLaunchComplete launch s
  | .shrinkRequest core wg need => execShrinkRequest core wg need s
  | .programLoad core ctx prog => execProgramLoad core ctx prog s
  | .preemptRequest core ctx => execPreemptRequest core ctx s
  | .contextRestore core ctx => execContextRestore core ctx s
  | .imageToBacking core slot => execImageToBacking core slot s
  | .saveSlotZeroed core slot => execSaveSlotZeroed core slot s
  | .lsHalfEvict core half => execLsHalfEvict core half s
  | .pendingMerge die sector => .next (s.pendingMerge die sector)
  | .trapReport core grp => .next (s.trapReport core grp)
  | .bootNext => .next s.bootNext

/-- A step, where a test says that it may be due. -/
def when_ (b : Bool) (d : Due) : List Due := if b then [d] else []

/-- The steps that may be due in a group. -/
def State.dueGroup (s : State) (c g : Nat) (x : Group) : List Due :=
  when_ x.trapPend.isSome (.trapEntry c g) ++ when_ (!x.report.isEmpty) (.trapReport c g)
    ++ (match x.park with
      | .marker => [.groupUnpark c g]
      | .waitall => [.waitallComplete c g]
      | .fence _ _ _ => [.fenceComplete c g]
      | .yield _ _ => [.yieldEnd c g]
      | .rdv _ _ _ => [.rdvComplete c g]
      | .detach => [.detachRetire c g]
      | _ => [])
    ++ when_ (x.slots.isEmpty && x.spill.isEmpty) (.groupEnd c g)
    ++ when_ (!x.countSent && decide (x.triggered ||| x.exited = BitVec.allOnes 32)) (.triggerCount c g)
    ++ (x.slots.flatMap fun p => match p.2.wait with
      | .acc2v _ _ _ _ _ _ => [Due.acc2vComplete c g p.1]
      | .publish _ => [.publishAccept c g p.1]
      | .cwait _ => [.cwaitComplete c g]
      | .tfree e => [.tfreeComplete c e]
      | .phase off _ => when_ ((s.core c).phaseOver p.2) (.barrierBankUpdate c off 1)
      | _ => [])
    ++ x.spill.zipIdx.flatMap fun y => match y.1.wait with
      | .tfree e => [Due.tfreeComplete c e]
      | .acc2v _ _ _ _ _ _ => [.acc2vComplete c g (32 + y.2)]
      | .phase off _ => when_ ((s.core c).phaseOver y.1) (.barrierBankUpdate c off 1)
      | _ => []

/-- The steps that may be due in a sequencer. -/
def dueSeq (c : Nat) (cp : Bool) (q : Sequencer) : List Due :=
  (match q.wait with
    | .cwait _ => [Due.cwaitComplete c (48 + cp.toNat)]
    | .tfree e => [.tfreeComplete c e]
    | _ => [])
    ++ when_ (decide (q.run = .ending) || (q.owner.isNone && decide (q.run = .ended ∨ q.run = .stopped ∨ q.run = .reported)))
        (.sequencerEnd c cp.toNat)

/-- The step of the matrix engine's first operation. -/
def MatrixKind.step (c : Nat) : MatrixKind → Due
  | .mma _ _ _ _ _ _ => .mmaPerform c
  | .mldb _ _ => .mldbComplete c
  | .acc2t _ _ _ _ | .t2acc _ _ _ | .v2acc _ _ _ => .maccPerform c
  | .mzero _ | .mperm _ | .mbandW _ _ | .mbandA _ _ => .mctlPerform c

/-- The steps that may be due on a core. -/
def State.dueCore (s : State) (c : Nat) (k : Core) : List Due :=
  (k.groups.flatMap fun p => s.dueGroup c p.1 p.2)
    ++ dueSeq c false k.mseq ++ dueSeq c true k.cseq
    ++ ((k.mqueue.take 1).map fun o => o.kind.step c)
    ++ when_ ((k.mqueue.drop 1).any fun o => match o.kind with | .mldb _ _ => true | _ => false) (.mldbComplete c)
    ++ when_ (decide (k.mqueue.length < 16) && !(s.queueWaiters c true .matrixQueue).isEmpty) (.matrixQueueAccept c)
    ++ when_ (!(s.queueWaiters c false (.copyQueue false)).isEmpty || !(s.queueWaiters c false (.copyQueue true)).isEmpty)
        (.copyQueueAccept c)
    ++ ((k.loadQ ++ k.storeQ).map fun o => if o.lane then .lcopyComplete o.op else .bcopyComplete o.op)
    ++ ((k.arrivals.map fun a => a.offset).eraseDups.map fun off => .barrierBankUpdate c off k.arrivals.length)
    ++ when_ (k.narrow != s.regs.alarm.getLsbD (dieOf c)) (.narrowModeChange c)
    ++ when_ (k.halted && k.ctx.isSome) (.contextSave c)
    ++ when_ (!k.halted && !k.redirect.isEmpty) (.redirectApply c)
    ++ (k.slots.flatMap fun p => when_ (p.2.image.isNone && !p.2.zeroed) (.saveSlotZeroed c p.1))
    ++ k.wgs.flatMap fun p =>
      when_ (!p.2.colls.isEmpty) (.collMemberAccept c p.1)
        ++ when_ (decide (p.2.rank = 0) && decide (p.2.quantum * 1300 ≤ p.2.qcount)) (.quantumExpire c p.1)

/-- The step that ends an outstanding operation. -/
def Op.step (o : Op) : Due :=
  match o.kind with
  | .load _ _ _ | .ldx _ _ | .pref | .qpush _ | .qpop _ => .resultWriteback o.op
  | .atomic _ returns _ => if returns then .resultWriteback o.op else .writeAcknowledged o.op
  | .store _ _ | .qfree _ => .writeAcknowledged o.op
  | .mappg _ => .mappgComplete o.op
  | .tlbinv _ => .tlbinvComplete o.op
  | .mperm => .mpermDataArrive o.op

/-- The step that a coherence message brings about. -/
def Msg.step (m : Msg) : Due :=
  match m.kind with
  | .gets => .getsMessage m.msg
  | .getx => .getx m.msg
  | .preq => .preq m.msg
  | .done => .done m.msg
  | .act => .act m.msg
  | .deact => .deact m.msg
  | .recr => .recr m.msg
  | .binv => .binv m.msg
  | .nack => .nack m.msg
  | .tok => .tok m.msg
  | .rack => .rack m.msg
  | .data => .data m.msg
  | .wb => .wb m.msg

/-- The steps that may be due in the coherence of sectors. -/
def State.dueSectors (s : State) : List Due :=
  (s.msgs.flatMap fun m => m.step :: when_ (decide (m.born + 2600 < s.now)) (.messageExpire m.msg))
    ++ (s.misses.flatMap fun p => when_ (!p.2.persistent && decide (p.2.started + 1300 ≤ s.now)
      && (decide (p.2.attempt ≠ 0) || decide (s.preqsOf p.2.holder (tableOf p.2.sector) < 6))) (.attemptDeadline p.1))
    ++ (s.persists.flatMap fun p => when_ (p.2.active.isSome && decide (p.2.actClk + 26000 ≤ s.now)) (.recreateTimeout p.1))
    ++ (s.recrHeld.map .recreateDeferred)
    ++ (s.homeReads.flatMap fun p => when_ (!p.2) (.homeSectorRead p.1))
    ++ s.deacts.flatMap fun d => when_ (decide (d.2.2 + 2600 ≤ s.now)) (.deactMemoryExpire (d.1 % 64) (d.1 / 64))

/-- The steps that may be due for a member of a collective or an exchange. -/
def Member.steps (y : Member) : List Due :=
  match y.exchange, y.stage with
  | false, .accepted | false, .running => []
  | false, .checked => [.collJoin y.mem]
  | false, .joined => [.startNotice y.mem]
  | false, .started | false, .ready => [.collMemberComplete y.mem]
  | true, .accepted => [.dpostRecordRead y.mem]
  | true, .checked | true, .joined | true, .started => []
  | true, .running => (List.range y.phases.length).map (.exchangePhaseStart y.mem) ++ [.exchangeComplete y.mem]
  | true, .ready => [.exchangeComplete y.mem]

/-- The step that a message of the collective plane brings about. -/
def XMsg.step (x : XMsg) : Due :=
  match x.kind with
  | .calendar => .calendarReceive x.msg
  | .ack => .calendarAck x.msg
  | .go => .goMessage x.msg
  | .issueNote => .issueNotice x.hub x.set_
  | .goNote => .goNotice x.hub x.set_

/-- The steps that may be due in the collective plane. -/
def State.duePlane (s : State) : List Due :=
  (s.members.flatMap fun p => p.2.steps)
    ++ (if s.matches_.isEmpty then [] else [.collStart 0, .collStart 1])
    ++ (s.postSets.flatMap fun p =>
      if p.2.completed.isNone then [] else if p.2.hub = 0 then when_ p.2.issued.isNone (.calendarIssue 0 p.2.set_)
      else [.standbyIssueTimeout p.2.set_, .standbyGoTimeout p.2.set_, .standbyNogoTimeout p.2.set_])
    ++ (s.postQ.map fun q => .exchangePost q.hub q.mem) ++ s.xmsgs.map XMsg.step

/-- R277, R314: the sectors whose pending writes a die can merge, or has still to ask the tokens for. -/
def State.dueMerges (s : State) (d : Nat) (k : Die) : List Due :=
  ((k.pw.map fun w => w.sector).eraseDups.filter fun x => (s.tok d x).canWrite || (s.missOf d x).isNone).map (.pendingMerge d)

/-- The steps that may be due on a die. -/
def State.dueDie (s : State) (d : Nat) (k : Die) : List Due :=
  s.dueMerges d k ++ (k.walks.map fun p => Due.pageWalkComplete d p.1)
    ++ ((k.cleaning.map Prod.fst).eraseDups.map fun w => .wayCleanComplete d w)
    ++ k.gated.map fun x => .sliceWake d x

/-- The steps that may be due in the distributor and the control processor. -/
def State.dueWork (s : State) : List Due :=
  (match s.nextQueue with
    | some n => [Due.launchAdmit (n / 4) (n % 4)]
    | none => [])
    ++ (s.launches.flatMap fun p =>
      when_ (decide (p.2.record.inq ≠ 0) && p.2.parent.isNone) (.queueDispatch p.1) ++ [.launchComplete p.1])
    ++ when_ (s.launches.any fun p => p.2.allCounted) (.triggerCount 96 0)
    ++ when_ (s.placing.isSome || !s.launches.isEmpty) .gangPlace
    ++ when_ (s.placing.any fun p => p.asked.isSome) .shrinkTimeout
    ++ when_ s.regs.killing .ctxKillComplete
    ++ when_ s.regs.cxBusy (if s.regs.cxOp = 0 then .cxCreate else .cxLoadStack)
    ++ when_ s.regs.faBusy (if s.regs.faZeroing then .frameZeroComplete else if s.regs.faRel then .faRelease else .faAssign)
    ++ when_ (decide (s.regs.bootStep = 5)) .bundleVerifyComplete
    ++ when_ ([1, 2, 3, 6].contains s.regs.bootStep) .bootNext

/-- Every step of the module's own agents that may be due. -/
def State.due (s : State) : List Due :=
  (s.cores.flatMap fun p => s.dueCore p.1 p.2)
    ++ (s.ops.map fun p => p.2.step)
    ++ (s.queues.flatMap fun p => when_ (!p.2.pushers.isEmpty) (.qpushGrant p.1))
    ++ (s.windows.flatMap fun p =>
      when_ (!p.2.drains.isEmpty) (.publishCounterWrite p.1) ++ when_ p.2.busy (.pwUnregisterComplete p.1))
    ++ s.dueSectors
    ++ (s.dies.flatMap fun p => s.dueDie p.1 p.2)
    ++ s.duePlane
    ++ s.dueWork

/-- The step that the module's own agents take next: one of those that may be due, in rotation. -/
def State.nextDue (s : State) : Option Due :=
  let l := s.due
  if l.isEmpty then none else l[s.lastDue % l.length]?

/-! ### Whose turn it is -/

/-- R3, R310: the messages that have been on their way for as long as a message takes, and are delivered now. -/
def State.overdue (s : State) : List Due :=
  (s.msgs.filter fun m => decide (m.born + (if m.kind = .rack then 832 else 416) ≤ s.now)).map Msg.step

/-- With nothing on the agenda, issue slots and the steps of the other agents alternate; each turn is one clk. -/
def State.turn (s : State) : Outcome State Fault Refusal :=
  let s := s.advance 1
  match if s.issued then none else s.nextUnit with
  | some n => s.issueUnit n
  | none =>
    match s.nextDue with
    | some d => State.runDue { s with issued := false, lastDue := s.lastDue + 1, agenda := s.overdue.map Turn.todo } d
    | none => match s.nextUnit with
      | some n => s.issueUnit n
      | none => .next { s with issued := false }

/-- The next of the agenda: a step of another agent or of the outside world, or an issue. -/
def State.take1 (s : State) (t : Turn) (rest : List Turn) : Outcome State Fault Refusal :=
  let s : State := { s with agenda := rest, cur := none }
  match t with
  | .event dt ev => exec ev (s.advance dt)
  | .todo d => s.runDue d
  | .issue who => s.issue who

/-! ### A program placed from outside -/

/-- The split whose instruction the next step fetches, where that is an issue by a group: core, group slot, split slot. -/
def State.nextFetch (s : State) : Option (Nat × Nat × Nat) :=
  match if s.agenda.isEmpty && !s.issued then s.nextUnit else none with
  | none => none
  | some n =>
    let c := n / 6
    match if n % 6 < 4 then s.quarterTakes c (n % 6) else none with
    | none => none
    | some g => match s.grp c g with
      | none => none
      | some x => match if x.stall = 0 ∧ x.exchangeDue = none then s.chooseSlot c x else none with
        | none => none
        | some k => match x.slots.look k with
          | none => none
          | some sp =>
            if x.deferredFor sp = none ∧ inRegion (s.region c x) sp.pc.toNat 2 = true then some (c, g, k) else none

/-- Two parcels written into a core's program store. -/
def State.putWord (s : State) (c at_ : Nat) (p0 p1 : Parcel) : State :=
  let k := s.core c
  s.setCore c { k with pstore := (k.pstore.set 0 at_ p0).set 0 (at_ + 1) p1 }

/-- R38, R68: a machine that is about to run a program loaded from outside: core 0 runs a workgroup of one group, with all 96 registers,
whose program occupies the first region; no tile, accumulator, barrier word or local store is allocated. -/
def State.started (s : State) : State :=
  let w : Workgroup :=
    { uid := s.serial, ctx := 0, launch := 0, gang := 0, rank := 0, cls := 0, nregs := 96, base := 0, size := 0, tiles := [], accs := [],
      bars := 0, emin := 1, emax := 1, rbase := 0, rlen := 30720, entry := 0, aentry := 0, args := 0, widths := [], coords := [] }
  let g : Group :=
    { uid := s.serial + 1, ctx := 0, wg := 0, gid := 0, nregs := 96, block := 0, slots := [(0, { pc := 0, mask := BitVec.allOnes 32 })] }
  let k := s.core 0
  let s : State := { s with agenda := [], cur := none, issued := false, lastUnit := 575, serial := s.serial + 2 }
  s.setCore 0 { k with
    ctx := some 0, split := false, half := 0, stacked := true, halted := false, gated := false, groups := [(0, g)], wgs := [(0, w)], lastTaken := [] }

/-- An instruction placed where the next step fetches; a machine that fetches nothing next is started first. -/
def State.placeWord (s : State) (p0 p1 : Parcel) : State :=
  match s.nextFetch with
  | some (c, g, k) => match s.iss c g k with
    | some I => s.putWord c I.sp.pc.toNat p0 p1
    | none => s
  | none => s.started.putWord 0 0 p0 p1

end Sys2Proof.Machine
end

