-- ==== Sys2Proof/Machine/Step.lean ====
section
/-! DEFINITION. One step of the module, and how a state is made that runs a given instruction next. -/

namespace Sys2Proof.Machine

/-- One step: the first entry of the agenda, or, with none, the turn that local time and the rotation give. -/
def step (s : State) : Host.Outcome State Fault Refusal :=
  match s.agenda with
  | [] => s.turn
  | t :: rest => s.take1 t rest

/-- The state with an instruction where the next step fetches it: its first two parcels are those of `w`. -/
def State.withFetchWord (s : State) (_nbits w : Nat) : State := s.placeWord (parcelLo w) (parcelHi w)

end Sys2Proof.Machine
end

