-- ==== Sys2Proof/Safety.lean ====
section
/-! DEFINITION. What counts as a safe run, in the terms that the statements use: canonical memories, states in which nobody is in the
middle of an instruction, and runs that never end in a fault or a refusal. -/

namespace Sys2Proof.Machine

/-- The canonical form of the byte memory: rising addresses, and no byte listed that equals what an unlisted address reads as. -/
abbrev Memory.wf (m : SMap Byte) : Bool := SMap.wf 0 m

/-- The invariant of every step: the memory is canonical, and nobody is in the middle of an instruction. -/
def State.Inv (s : State) : Prop := Memory.wf s.mem = true ∧ s.cur = none

/-- The answer of a step is a next state. -/
def isNext (r : Host.Outcome State Fault Refusal) : Bool :=
  match r with
  | .next _ => true
  | .fault _ => false
  | .refused _ => false

/-- `n` steps from a state, all of which answer a next state. -/
def State.safeFor (s : State) : Nat → Prop
  | 0 => True
  | n + 1 => ∃ t, step s = .next t ∧ t.safeFor n

end Sys2Proof.Machine
end

