-- ==== Sys2Proof/Certificates/Slice0/Obligations.lean ====
section
/-! DEFINITION. The statements for the provers, about the machine and its instruction set (spec 01 to 17). Each is a proposition; its
docstring names the rules that it formalises. -/

namespace Sys2Proof.Claims

open Machine Host

/-! ### Words used by the statements -/

/-- A split executes: the state names it as the issuer, and it is `I`. -/
def Issues (s : State) (I : Iss) : Prop := s.cur = some (.split I.c I.g I.k) ∧ s.iss I.c I.g I.k = some I

/-- R6, R10, R77: register operands (code, count) that an instruction of the group may use now: aligned, not pending, and within the
group's v registers or among the s registers. -/
def Usable (g : Group) (ops : List (Nat × Nat)) : Prop :=
  ∀ o ∈ ops, o.1 % o.2 = 0 ∧ ∀ r, o.1 ≤ r → r < o.1 + o.2 → r ∉ g.pend ∧ (r < g.nregs ∨ 96 ≤ r)

/-- R8, R76: the register of a code holds `f` in the lanes of a mask (an s register the value of the lowest lane), and every other
register, and every other lane, is as before. -/
def Writes (g G : Group) (k : Mask) (d : Nat) (f : Nat → Word) : Prop :=
  (∀ L, k.getLsbD L = true → d < 96 → G.vget d L = f L) ∧ (96 ≤ d → G.sget (d - 96) = f (lowest k))
    ∧ (∀ r L, r < 96 → (r = d → k.getLsbD L = false) → G.vget r L = g.vget r L) ∧ ∀ r, r + 96 ≠ d → G.sget r = g.sget r

/-- The same of the pair of an even code: the low word in the register of the code, the high word in the next. -/
def Writes2 (g G : Group) (k : Mask) (d : Nat) (f : Nat → Dword) : Prop :=
  (∀ L, k.getLsbD L = true → d < 96 → G.vget d L = (f L).setWidth 32 ∧ G.vget (d + 1) L = (f L).extractLsb' 32 32)
    ∧ (96 ≤ d → G.sget (d - 96) = (f (lowest k)).setWidth 32 ∧ G.sget (d - 95) = (f (lowest k)).extractLsb' 32 32)
    ∧ (∀ r L, r < 96 → (r = d ∨ r = d + 1 → k.getLsbD L = false) → G.vget r L = g.vget r L)
    ∧ ∀ r, r + 96 ≠ d → r + 95 ≠ d → G.sget r = g.sget r

/-- Every v and s register is as before. -/
def SameRegs (g G : Group) : Prop := (∀ r L, G.vget r L = g.vget r L) ∧ ∀ r, G.sget r = g.sget r

/-- Every predicate is as before. -/
def SamePreds (g G : Group) : Prop := ∀ n, G.pget n = g.pget n

/-- R8, R149: a status word stands in the register of a code for the lanes of a mask that have not exited; with none of them left nothing is written. -/
def Answers (g G : Group) (k : Mask) (d : Nat) (x : Word) : Prop :=
  (k &&& ~~~ g.exited ≠ 0 → Writes g G (k &&& ~~~ g.exited) d fun _ => x) ∧ (k &&& ~~~ g.exited = 0 → SameRegs g G)

/-- The group's special, exception and bookkeeping state is as before. -/
def Kept (g G : Group) : Prop :=
  G.uid = g.uid ∧ G.ctx = g.ctx ∧ G.wg = g.wg ∧ G.gid = g.gid ∧ G.nregs = g.nregs ∧ G.block = g.block ∧ G.pend = g.pend
    ∧ G.sup = g.sup ∧ G.pfdrop = g.pfdrop ∧ G.trapcause = g.trapcause ∧ G.trapmask = g.trapmask ∧ G.trapaddr = g.trapaddr
    ∧ G.trapsplit = g.trapsplit ∧ G.exited = g.exited ∧ G.triggered = g.triggered ∧ G.deferred = g.deferred

/-- Every byte of device and host memory reads as before in every die's view, and so does every byte of every local store. -/
def SameMem (s t : State) : Prop :=
  (∀ d a, t.dieView d a = s.dieView d a) ∧ ∀ c o, SMap.get 0 (t.core c).ls o = SMap.get 0 (s.core c).ls o

/-- An instruction answers a next state in which only the issuing group has changed, and the group is as a test says. -/
def Runs (i : Instr) (s : State) (I : Iss) (P : Group → Prop) : Prop :=
  ∃ G t, exec i s = .next t ∧ t = s.setGrp I.c I.g G ∧ SameMem s t ∧ Kept I.gr G ∧ P G

/-- R458, R459: the 32 B of the error record of an index of the ring. -/
def recordAt (g : Regs) (n : Nat) : Nat := ofBytes ((fromN (g.erBase.toNat + 32 * n) 32).map fun a => SMap.get 0 g.cpMem a)

/-- The split has gone on: some split of the group, in a slot or in a record, stands at a PC and holds all its lanes (R26 may have
merged others into it). -/
def StandsAt (G : Group) (pc : Pc) (mask : Mask) : Prop :=
  ∃ x, (x ∈ SMap.vals G.slots ∨ x ∈ G.spill) ∧ x.pc = pc ∧ mask &&& ~~~ x.mask = 0

/-- R152: the group has taken a cause in the lanes of a mask: with nothing pending the handler runs, and the trap registers tell
cause, lanes, addresses and the place where the split resumes; otherwise the cause waits for the pending count to reach 0. -/
def Trapped (t : State) (I : Iss) (cause : BitVec 8) (mask : Mask) (pc : Pc) (done : Bool) : Prop :=
  ∃ G, t.grp I.c I.g = some G ∧
    (I.gr.pend = [] →
      G.sup = true ∧ G.trapcause = cause ∧ G.trapmask = mask ∧ G.trapsplit.extractLsb' 0 32 = I.sp.mask
        ∧ G.trapsplit.extractLsb' 32 17 = pc ∧ G.trapsplit.getLsbD 49 = done
        ∧ ∃ x, G.slots.look G.handlerSlot = some x ∧ x.pc = (t.core I.c).handler cause ∧ x.mask = mask)
    ∧ (I.gr.pend ≠ [] → G.sup = false ∧ ∃ q, G.trapPend = some q ∧ q.cause = cause ∧ q.mask = mask ∧ q.pc = pc ∧ q.done = done)

/-! ### Encodings -/

/-- Words written out from the spec's encodings (R67, R72 to R87): the example words that the rules give, and a word for each further
family put together from its format's fields. -/
def exampleWords : List (BitVec 16 × BitVec 16 × Instr) :=
  [(0x0B01, 0x0000, .trap false 5), (0x0105, 0x0000, .rft false), (0x0119, 0x0000, .halt false),
   (0x0B09, 0x0400, .gets false 8 5), (0x010D, 0x0400, .sets false 8 0), (0x01B1, 0x3AF4, .fork false 0x75 0x74),
   (0x00FD, 0x0000, .nop32 false), (0x00FD, 0x4000, .waitall false), (0x00FD, 0x8000, .yield false)]

end Sys2Proof.Claims

open Sys2Proof Sys2Proof.Machine Sys2Proof.Claims Host

/-- R72 to R75, R84, R86, R151, R158 to R163, R252: the words that the spec writes out decode to their instructions. -/
def Obligations.ExampleWordsDecode : Prop := ∀ x ∈ exampleWords, decode x.1 x.2.1 = .instr x.2.2 (if x.1.getLsbD 0 then 2 else 1)

/-- R67 to R87: what the encoder writes for a well-formed instruction, the decoder reads back, with every operand and its length. -/
def Obligations.DecodeOfEncode : Prop :=
  ∀ (i : Instr) (w n : Nat), wellFormed i = true → encode i = some (w, n) → decode (parcelLo w) (parcelHi w) = .instr i n

/-- R67 to R87: whatever the decoder accepts is well-formed, and the encoder gives back the parcels that were read. -/
def Obligations.EncodeOfDecode : Prop :=
  ∀ (p0 p1 : BitVec 16) (i : Instr) (n : Nat), decode p0 p1 = .instr i n →
    wellFormed i = true ∧ ∃ w, encode i = some (w, n) ∧ parcelLo w = p0 ∧ (n = 1 ∨ (n = 2 ∧ parcelHi w = p1))

/-- R67, R87: a 16-bit parcel is always an instruction of one parcel, and what is no instruction takes cause 0x01 or 0x02. -/
def Obligations.RejectionCauses : Prop :=
  (∀ p0 p1 : BitVec 16, p0.getLsbD 0 = false → ∃ i, decode p0 p1 = .instr i 1)
    ∧ ∀ (p0 p1 : BitVec 16) (c : BitVec 8), decode p0 p1 = .reject c → c = 0x01 ∨ c = 0x02

/-! ### Reset and the step -/

/-- R276, R456: what reset leaves: memory canonical and reading 0, every residue at 16 tokens with the owner, no context live, no group
and no workgroup on any core, every sequencer IDLE, and nobody in the middle of an instruction. (That memory reads 0 before anything is
written is the model's choice: log 3.) -/
def Obligations.ResetState : Prop :=
  Memory.wf State.reset.mem = true ∧ State.reset.cur = none
    ∧ (∀ a, State.reset.merged a = 0) ∧ (∀ x, (State.reset.ctx x).live = false)
    ∧ (∀ sec, SMap.get ({} : Residue) State.reset.residues sec = { count := 16, owner := true, serial := 0, parityOk := true })
    ∧ (∀ c, (State.reset.core c).groups = [] ∧ (State.reset.core c).wgs = [] ∧ (State.reset.core c).mseq.run = .idle
        ∧ (State.reset.core c).cseq.run = .idle ∧ (State.reset.core c).narrow = false)

/-- A step of the machine keeps the canonical form of memory: rising addresses, and no byte listed that equals what an unlisted address
reads as. -/
def Obligations.StepKeepsMemoryCanonical : Prop :=
  ∀ s t : State, Memory.wf s.mem = true → step s = .next t → Memory.wf t.mem = true

/-- No step of the machine ends in a fault or a refusal: whatever the state, the next state exists, unless the outside world's agenda
asks for an encoded instruction as if it were an event. -/
def Obligations.StepAlwaysAnswers : Prop :=
  ∀ s : State, (∀ dt ev rest, s.agenda = .event dt ev :: rest → encode ev = none) → ∃ t, step s = .next t

/-- R67, R68: a step at a state whose agenda gives the issue to a split executes the instruction that the parcels at the split's PC
decode to, in the state that names the split as the issuer; after it the issue is over (`State.issuedBy`: nobody issues, R151 and R460 take
note). The same of a turn of the machine's own: a quarter's ready split, in the state that local time and the rotation have reached. -/
def Obligations.StepRunsDecodedInstruction : Prop :=
  (∀ (s : State) (c g k : Nat) (I : Iss) (rest : List Turn) (i : Instr) (n : Nat),
    s.agenda = .issue (.split c g k) :: rest → s.iss c g k = some I →
    decode ((s.core c).parcel I.sp.pc.toNat) ((s.core c).parcel (I.sp.pc.toNat + 1)) = .instr i n →
    (s.region c I.gr).1 ≤ I.sp.pc.toNat → I.sp.pc.toNat + n ≤ (s.region c I.gr).2 → 0 < n →
      step s = thenDo (State.issuedBy (.split c g k) (some I.gr.uid)) (exec i { s with agenda := rest, cur := some (.split c g k) }))
  ∧ ∀ (s r : State) (c u g k : Nat) (x : Group) (I : Iss) (i : Instr) (n : Nat),
    s.agenda = [] → s.issued = false → u < 4 → (s.advance 1).nextUnit = some (6 * c + u) →
    State.quarterTakes { s.advance 1 with lastUnit := 6 * c + u, issued := true } c u = some g →
    r = State.setCore { s.advance 1 with lastUnit := 6 * c + u, issued := true } c
      { (s.advance 1).core c with lastTaken := ((s.advance 1).core c).lastTaken.put u (g % 12) } →
    r.grp c g = some x → x.stall = 0 → x.exchangeDue = none → r.chooseSlot c x = some k → r.iss c g k = some I →
    x.deferredFor I.sp = none →
    decode ((r.core c).parcel I.sp.pc.toNat) ((r.core c).parcel (I.sp.pc.toNat + 1)) = .instr i n →
    (r.region c x).1 ≤ I.sp.pc.toNat → I.sp.pc.toNat + n ≤ (r.region c x).2 → 0 < n →
      step s = thenDo (State.issuedBy (.split c g k) (some x.uid)) (exec i { r with cur := some (.split c g k) })

/-- R68, R88: a split whose fetch leaves its region, the second parcel included, takes cause 0x07 with its PC at the instruction's first
parcel and done = 0; where only the second parcel lies outside, a first parcel of a major that has no instruction takes 0x01, one whose fields no
instruction can have 0x02, and one of a supervisor-only instruction (majors 0x44 to 0x46 of R84) 0x05, the lower codes. (That the first parcel
alone is judged there, by the second parcels `probes` that could follow it, is the model's choice: log 102.) -/
def Obligations.FetchOutsideRegion : Prop :=
  ∀ (s : State) (c g k : Nat) (I : Iss) (rest : List Turn),
    s.agenda = .issue (.split c g k) :: rest → s.iss c g k = some I → I.gr.sup = false →
    let p0 := (s.core c).parcel I.sp.pc.toNat
    let Takes (x : BitVec 8) : Prop := ∃ t, step s = .next t ∧ Trapped t I x I.sp.mask I.sp.pc false
    (I.sp.pc.toNat < (s.region c I.gr).1 ∨ (s.region c I.gr).2 ≤ I.sp.pc.toNat → Takes 0x07)
    ∧ ((s.region c I.gr).1 ≤ I.sp.pc.toNat → I.sp.pc.toNat + 1 = (s.region c I.gr).2 → p0.getLsbD 0 = true →
        ((∀ p1, decode p0 p1 = .reject 1) → Takes 0x01)
        ∧ ((∀ p1 ∈ probes, decode p0 p1 = .reject 1 ∨ decode p0 p1 = .reject 2) → (∃ p1 ∈ probes, decode p0 p1 = .reject 2) → Takes 0x02)
        ∧ ((∃ p1 ∈ probes, ∃ i, decode p0 p1 = .instr i 2) → Takes (if 0x44 ≤ p0.toNat / 4 % 128 ∧ p0.toNat / 4 % 128 ≤ 0x46 then 0x05 else 0x07)))

/-! ### Lane instructions -/

namespace Sys2Proof.Claims

abbrev Op3 := Bool → BitVec 7 → BitVec 7 → BitVec 7 → Instr
abbrev Op2 := Bool → BitVec 7 → BitVec 7 → Instr

/-- R106, R107: arithmetic and logic with a word result of two word sources, and the result of a and b. -/
def integerArith : List (Op3 × (Word → Word → Word)) :=
  [(.addI32, fun a b => a + b), (.subI32, fun a b => a - b), (.mulI32, fun a b => a * b),
   (.mulhiI32, fun a b => BitVec.ofInt 32 (a.toInt * b.toInt / 2 ^ 32)), (.mulhiN32, fun a b => BitVec.ofNat 32 (a.toNat * b.toNat / 2 ^ 32)),
   (.minI32, fun a b => if a.toInt ≤ b.toInt then a else b), (.maxI32, fun a b => if a.toInt ≤ b.toInt then b else a),
   (.minN32, fun a b => if a.toNat ≤ b.toNat then a else b), (.maxN32, fun a b => if a.toNat ≤ b.toNat then b else a)]
def integerLogic : List (Op3 × (Word → Word → Word)) :=
  [(.and, fun a b => a &&& b), (.or, fun a b => a ||| b), (.xor, fun a b => a ^^^ b), (.andn, fun a b => a &&& ~~~ b),
   (.shl, fun a b => a <<< (b.toNat % 32)), (.shr, fun a b => a >>> (b.toNat % 32)), (.sar, fun a b => a.sshiftRight (b.toNat % 32)),
   (.rol, fun a b => a.rotateLeft (b.toNat % 32))]
/-- R108, R109, R111, R112, R114: fields, extensions, rounding shifts and packing. -/
def integerFields : List (Op3 × (Word → Word → Word)) :=
  [(.bfxN32, bfxN), (.bfxI32, bfxI), (.bysel, byselW), (.sext, fun a b => sextW a (b.toNat % 32 + 1)),
   (.zext, fun a b => zextW a (b.toNat % 32 + 1)), (.shrrI32, shrrW), (.pmaxI16x2, pmaxW),
   (.pack16, fun a b => b.extractLsb' 0 16 ++ a.extractLsb' 0 16), (.pshrrI16x2, pshrrW)]
/-- R121 to R123, R125: floating point. -/
def floatBinary : List (Op3 × (Word → Word → Word)) :=
  [(.faddF32, faddW), (.fsubF32, fsubW), (.fmulF32, fmulW), (.fminF32, fminW), (.fmaxF32, fmaxW), (.fdivF32, fdivW)]
def packedFloat : List (Op3 × (Word → Word → Word)) :=
  [(.haddBf16x2, hadd bf16), (.hmulBf16x2, hmul bf16), (.hmaxBf16x2, hmax bf16), (.haddF16x2, hadd f16), (.hmulF16x2, hmul f16),
   (.hmaxF16x2, hmax f16)]
/-- Every instruction with a word result of two word sources. -/
def binary : List (Op3 × (Word → Word → Word)) := integerArith ++ integerLogic ++ integerFields ++ floatBinary ++ packedFloat

/-- R107, R109, R114, R122, R124 to R126: the instructions with a word result of one word source. -/
def integerUnary : List (Op2 × (Word → Word)) :=
  [(.popc, popcW), (.clz, clzW), (.brev, brevW), (.ffs, ffsW), (.absI32, absW), (.negI32, fun a => -a),
   (.unpkloI16, fun a => (a.extractLsb' 0 16).signExtend 32), (.unpkhiI16, fun a => (a.extractLsb' 16 16).signExtend 32)]
def floatUnary : List (Op2 × (Word → Word)) :=
  [(.fabsF32, fabsW), (.fnegF32, fnegW), (.rcpF32, rcpW), (.rsqF32, rsqW), (.exp2F32, exp2W), (.log2F32, log2W), (.sqrtF32, fsqrtW),
   (.frndF32, frndW), (.fclsF32, fclsW)]
def unary : List (Op2 × (Word → Word)) := integerUnary ++ floatUnary

/-- R106, R108, R121, R123: the instructions with a word result of d, a and b. -/
def ternary : List (Op3 × (Word → Word → Word → Word)) :=
  [(.madI32, fun d a b => d + a * b), (.sadN32, fun d a b => d + (if a.toNat ≤ b.toNat then b - a else a - b)), (.bfi, bfiW),
   (.ffmaF32, ffmaW), (.hfmaBf16x2, hfma bf16), (.hfmaF16x2, hfma f16)]

/-- An exact integer, clamped to a range. -/
def clamp (lo hi x : Int) : Int := if x < lo then lo else if hi < x then hi else x

/-- R40, R106, R111: the saturating instructions of two sources: the exact result and the range to which it is clamped. -/
def saturating : List (Op3 × (Word → Word → Int) × Int × Int) :=
  [(.addsI32, fun a b => a.toInt + b.toInt, -2 ^ 31, 2 ^ 31 - 1), (.subsI32, fun a b => a.toInt - b.toInt, -2 ^ 31, 2 ^ 31 - 1),
   (.shrrnI16, fun a b => rneInt a.toInt (b.toNat % 32), -2 ^ 15, 2 ^ 15 - 1)]

/-- R40, R111: the saturating instructions of one source. -/
def saturating1 : List (Op2 × Int × Int) := [(.satnI16, -2 ^ 15, 2 ^ 15 - 1), (.satnI8, -2 ^ 7, 2 ^ 7 - 1)]

/-- R113: the saturating sums of products: the exact result of d, a and b, and its range. -/
def saturating3 : List (Op3 × (Word → Word → Word → Int) × Int × Int) :=
  [(.pmad2I16, fun d a b => d.toInt + (a.extractLsb' 0 16).toInt * (b.extractLsb' 0 16).toInt
      + (a.extractLsb' 16 16).toInt * (b.extractLsb' 16 16).toInt, -2 ^ 31, 2 ^ 31 - 1),
   (.pmad2xI16, fun d a b => d.toInt + (a.extractLsb' 0 16).toInt * (b.extractLsb' 16 16).toInt
      + (a.extractLsb' 16 16).toInt * (b.extractLsb' 0 16).toInt, -2 ^ 31, 2 ^ 31 - 1),
   (.pmad4I8, fun d a b => d.toInt + (a.extractLsb' 0 8).toInt * (b.extractLsb' 0 8).toInt
      + (a.extractLsb' 8 8).toInt * (b.extractLsb' 8 8).toInt + (a.extractLsb' 16 8).toInt * (b.extractLsb' 16 8).toInt
      + (a.extractLsb' 24 8).toInt * (b.extractLsb' 24 8).toInt, -2 ^ 31, 2 ^ 31 - 1),
   (.pmad2N16, fun d a b => (d.toNat : Int) + (a.extractLsb' 0 16).toNat * (b.extractLsb' 0 16).toNat
      + (a.extractLsb' 16 16).toNat * (b.extractLsb' 16 16).toNat, 0, 2 ^ 32 - 1)]

/-- R112: the packed instructions that saturate each 16-bit element: the exact result of an element of a and one of b. -/
def packedSat : List (Op3 × (Int → Int → Int)) :=
  [(.paddI16x2, fun x y => x + y), (.psubI16x2, fun x y => x - y), (.pmulI16x2, fun x y => x * y)]

/-- R106, R110, R176: the instructions whose result is a pair: the shape of each source (registers of a and b) and the result of d, a and b,
of which a word source has its high half 0. -/
def pairs : List (Op3 × Nat × Nat × (Dword → Dword → Dword → Dword)) :=
  [(.mulwI32, 1, 1, fun _ a b => (a.setWidth 32).signExtend 64 * (b.setWidth 32).signExtend 64),
   (.madwI32, 1, 1, fun d a b => d + (a.setWidth 32).signExtend 64 * (b.setWidth 32).signExtend 64),
   (.madwN32, 1, 1, fun d a b => d + a * b),
   (.addI64, 2, 2, fun _ a b => a + b), (.subI64, 2, 2, fun _ a b => a - b),
   (.shlI64, 2, 1, fun _ a b => a <<< (b.toNat % 64)), (.shrN64, 2, 1, fun _ a b => a >>> (b.toNat % 64)),
   (.ptrmk, 1, 1, fun _ a b => b.extractLsb' 0 4 ++ b.extractLsb' 4 2 ++ (0 : BitVec 26) ++ a.extractLsb' 0 32),
   (.ptrrk, 2, 1, fun _ a b => a.extractLsb' 60 4 ++ b.extractLsb' 0 2 ++ a.extractLsb' 0 58),
   (.ptroff, 2, 1, fun _ a b => a.extractLsb' 58 6 ++ (a.extractLsb' 0 58 + (b.setWidth 32).signExtend 58))]

/-- The value of an operand of one or two registers. -/
def operand (g : Group) (r n L : Nat) : Dword := if n = 2 then g.rd64 r L else (g.rd r L).setWidth 64

/-- R74: the 16-bit forms on two registers: the result of d and b. -/
def short2 : List ((Bool → BitVec 5 → BitVec 5 → Instr) × (Word → Word → Word)) :=
  [(.mov_16, fun _ b => b), (.addI32_16, fun d b => d + b), (.subI32_16, fun d b => d - b), (.mulI32_16, fun d b => d * b),
   (.and_16, fun d b => d &&& b), (.or_16, fun d b => d ||| b), (.xor_16, fun d b => d ^^^ b), (.shl_16, fun d b => d <<< (b.toNat % 32)),
   (.faddF32_16, faddW), (.fmulF32_16, fmulW), (.fsubF32_16, fsubW)]

/-- R74: the 16-bit forms with an immediate: the result of d and the 5-bit field. -/
def shortImm : List ((Bool → BitVec 5 → BitVec 5 → Instr) × (Word → BitVec 5 → Word)) :=
  [(.movi_16, fun _ i => i.signExtend 32), (.addi_16, fun d i => d + i.signExtend 32), (.shli_16, fun d i => d <<< i.toNat),
   (.shri_16, fun d i => d >>> i.toNat), (.sari_16, fun d i => d.sshiftRight i.toNat)]

/-- R117: the RI instructions with a 9-bit immediate, and those with a 5-bit amount. -/
def imm9 : List ((Bool → BitVec 9 → BitVec 7 → BitVec 7 → Instr) × (Word → Word → Word)) :=
  [(.addi, fun a k => a + k), (.andi, fun a k => a &&& k), (.ori, fun a k => a ||| k), (.xori, fun a k => a ^^^ k), (.muli, fun a k => a * k)]
def imm5 : List ((Bool → BitVec 5 → BitVec 7 → BitVec 7 → Instr) × (Word → Nat → Word)) :=
  [(.shli, fun a n => a <<< n), (.shri, fun a n => a >>> n), (.sari, fun a n => a.sshiftRight n), (.roli, fun a n => a.rotateLeft n)]

end Sys2Proof.Claims

/-- R6, R8, R10, R15, R76, R103 with the results of `binary`: with usable operands each of these instructions completes; the destination holds
the result in every active lane, and nothing else of the group or of memory changes, `stat.sat` included. -/
def Obligations.WordsOfTwoSources : Prop :=
  ∀ op ∈ binary, ∀ (m : Bool) (b a d : BitVec 7) (s : State) (I : Iss), Issues s I →
    Usable I.gr [(d.toNat, 1), (a.toNat, 1), (b.toNat, 1)] →
    Runs (op.1 m b a d) s I fun G => Writes I.gr G I.sp.mask d.toNat (fun L => op.2 (I.gr.rd a.toNat L) (I.gr.rd b.toNat L))
      ∧ SamePreds I.gr G ∧ G.sat = I.gr.sat

/-- The same of one source, of the immediates of R116 and R117, and of PTRSP. -/
def Obligations.WordsOfOneSource : Prop :=
  (∀ op ∈ unary, ∀ (m : Bool) (a d : BitVec 7) (s : State) (I : Iss), Issues s I → Usable I.gr [(d.toNat, 1), (a.toNat, 1)] →
    Runs (op.1 m a d) s I fun G => Writes I.gr G I.sp.mask d.toNat (fun L => op.2 (I.gr.rd a.toNat L)) ∧ SamePreds I.gr G ∧ G.sat = I.gr.sat)
  ∧ (∀ op ∈ imm9, ∀ (m : Bool) (i : BitVec 9) (a d : BitVec 7) (s : State) (I : Iss), Issues s I →
    Usable I.gr [(d.toNat, 1), (a.toNat, 1)] →
    Runs (op.1 m i a d) s I fun G => Writes I.gr G I.sp.mask d.toNat (fun L => op.2 (I.gr.rd a.toNat L) (i.signExtend 32))
      ∧ SamePreds I.gr G ∧ G.sat = I.gr.sat)
  ∧ (∀ op ∈ imm5, ∀ (m : Bool) (n : BitVec 5) (a d : BitVec 7) (s : State) (I : Iss), Issues s I →
    Usable I.gr [(d.toNat, 1), (a.toNat, 1)] →
    Runs (op.1 m n a d) s I fun G => Writes I.gr G I.sp.mask d.toNat (fun L => op.2 (I.gr.rd a.toNat L) n.toNat)
      ∧ SamePreds I.gr G ∧ G.sat = I.gr.sat)
  ∧ (∀ (m : Bool) (i : BitVec 16) (d : BitVec 7) (s : State) (I : Iss), Issues s I → Usable I.gr [(d.toNat, 1)] →
    (Runs (.movi m i d) s I fun G => Writes I.gr G I.sp.mask d.toNat (fun _ => i.signExtend 32) ∧ SamePreds I.gr G ∧ G.sat = I.gr.sat)
    ∧ Runs (.movhi m i d) s I fun G => Writes I.gr G I.sp.mask d.toNat (fun L => i ++ (I.gr.rd d.toNat L).extractLsb' 0 16)
        ∧ SamePreds I.gr G ∧ G.sat = I.gr.sat)
  ∧ ∀ (m : Bool) (a d : BitVec 7) (s : State) (I : Iss), Issues s I → Usable I.gr [(d.toNat, 1), (a.toNat, 2)] →
    Runs (.ptrsp m a d) s I fun G =>
      Writes I.gr G I.sp.mask d.toNat (fun L => (0 : BitVec 26) ++ (I.gr.rd64 a.toNat L).extractLsb' 58 2 ++ (I.gr.rd64 a.toNat L).extractLsb' 60 4)
        ∧ SamePreds I.gr G ∧ G.sat = I.gr.sat

/-- The same of d, a and b, where d is read before it is written (R103). -/
def Obligations.WordsOfThreeSources : Prop :=
  ∀ op ∈ ternary, ∀ (m : Bool) (b a d : BitVec 7) (s : State) (I : Iss), Issues s I →
    Usable I.gr [(d.toNat, 1), (a.toNat, 1), (b.toNat, 1)] →
    Runs (op.1 m b a d) s I fun G =>
      Writes I.gr G I.sp.mask d.toNat (fun L => op.2 (I.gr.rd d.toNat L) (I.gr.rd a.toNat L) (I.gr.rd b.toNat L))
        ∧ SamePreds I.gr G ∧ G.sat = I.gr.sat

/-- R15, R40, R106, R111 to R113: the saturating instructions write the exact result clamped to its range, and `stat.sat` becomes 1 exactly
where it was 1 or some active lane clamped. -/
def Obligations.SaturatingResults : Prop :=
  (∀ op ∈ saturating, ∀ (m : Bool) (b a d : BitVec 7) (s : State) (I : Iss), Issues s I →
    Usable I.gr [(d.toNat, 1), (a.toNat, 1), (b.toNat, 1)] →
    Runs (op.1 m b a d) s I fun G =>
      Writes I.gr G I.sp.mask d.toNat (fun L => BitVec.ofInt 32 (clamp op.2.2.1 op.2.2.2 (op.2.1 (I.gr.rd a.toNat L) (I.gr.rd b.toNat L))))
        ∧ SamePreds I.gr G
        ∧ (G.sat = true ↔ I.gr.sat = true ∨ ∃ L, I.sp.mask.getLsbD L = true ∧
            (op.2.1 (I.gr.rd a.toNat L) (I.gr.rd b.toNat L) < op.2.2.1 ∨ op.2.2.2 < op.2.1 (I.gr.rd a.toNat L) (I.gr.rd b.toNat L))))
  ∧ (∀ op ∈ saturating1, ∀ (m : Bool) (a d : BitVec 7) (s : State) (I : Iss), Issues s I → Usable I.gr [(d.toNat, 1), (a.toNat, 1)] →
    Runs (op.1 m a d) s I fun G =>
      Writes I.gr G I.sp.mask d.toNat (fun L => BitVec.ofInt 32 (clamp op.2.1 op.2.2 (I.gr.rd a.toNat L).toInt)) ∧ SamePreds I.gr G
        ∧ (G.sat = true ↔ I.gr.sat = true ∨ ∃ L, I.sp.mask.getLsbD L = true ∧
            ((I.gr.rd a.toNat L).toInt < op.2.1 ∨ op.2.2 < (I.gr.rd a.toNat L).toInt)))
  ∧ (∀ op ∈ saturating3, ∀ (m : Bool) (b a d : BitVec 7) (s : State) (I : Iss), Issues s I →
    Usable I.gr [(d.toNat, 1), (a.toNat, 1), (b.toNat, 1)] →
    Runs (op.1 m b a d) s I fun G =>
      Writes I.gr G I.sp.mask d.toNat (fun L => BitVec.ofInt 32
          (clamp op.2.2.1 op.2.2.2 (op.2.1 (I.gr.rd d.toNat L) (I.gr.rd a.toNat L) (I.gr.rd b.toNat L))))
        ∧ SamePreds I.gr G
        ∧ (G.sat = true ↔ I.gr.sat = true ∨ ∃ L, I.sp.mask.getLsbD L = true ∧
            (op.2.1 (I.gr.rd d.toNat L) (I.gr.rd a.toNat L) (I.gr.rd b.toNat L) < op.2.2.1
              ∨ op.2.2.2 < op.2.1 (I.gr.rd d.toNat L) (I.gr.rd a.toNat L) (I.gr.rd b.toNat L))))
  ∧ ∀ op ∈ packedSat, ∀ (m : Bool) (b a d : BitVec 7) (s : State) (I : Iss), Issues s I →
    Usable I.gr [(d.toNat, 1), (a.toNat, 1), (b.toNat, 1)] →
    Runs (op.1 m b a d) s I fun G =>
      let e (L j : Nat) : Int := op.2 ((I.gr.rd a.toNat L).extractLsb' (16 * j) 16).toInt ((I.gr.rd b.toNat L).extractLsb' (16 * j) 16).toInt
      Writes I.gr G I.sp.mask d.toNat (fun L =>
          BitVec.ofInt 16 (clamp (-2 ^ 15) (2 ^ 15 - 1) (e L 1)) ++ BitVec.ofInt 16 (clamp (-2 ^ 15) (2 ^ 15 - 1) (e L 0)))
        ∧ SamePreds I.gr G
        ∧ (G.sat = true ↔ I.gr.sat = true ∨ ∃ L, I.sp.mask.getLsbD L = true ∧ ∃ j, j < 2 ∧ (e L j < -2 ^ 15 ∨ 2 ^ 15 - 1 < e L j))

/-- R106, R110, R176: the instructions whose result is a register pair. -/
def Obligations.PairResults : Prop :=
  ∀ op ∈ pairs, ∀ (m : Bool) (b a d : BitVec 7) (s : State) (I : Iss), Issues s I →
    Usable I.gr [(d.toNat, 2), (a.toNat, op.2.1), (b.toNat, op.2.2.1)] →
    Runs (op.1 m b a d) s I fun G =>
      Writes2 I.gr G I.sp.mask d.toNat (fun L =>
          op.2.2.2 (I.gr.rd64 d.toNat L) (operand I.gr a.toNat op.2.1 L) (operand I.gr b.toNat op.2.2.1 L))
        ∧ SamePreds I.gr G ∧ G.sat = I.gr.sat

/-- R72 to R74: the 16-bit forms on v0 to v31. -/
def Obligations.ShortForms : Prop :=
  (∀ op ∈ short2, ∀ (m : Bool) (b d : BitVec 5) (s : State) (I : Iss), Issues s I → Usable I.gr [(d.toNat, 1), (b.toNat, 1)] →
    Runs (op.1 m b d) s I fun G => Writes I.gr G I.sp.mask d.toNat (fun L => op.2 (I.gr.rd d.toNat L) (I.gr.rd b.toNat L))
      ∧ SamePreds I.gr G ∧ G.sat = I.gr.sat)
  ∧ ∀ op ∈ shortImm, ∀ (m : Bool) (i d : BitVec 5) (s : State) (I : Iss), Issues s I → Usable I.gr [(d.toNat, 1)] →
    Runs (op.1 m i d) s I fun G => Writes I.gr G I.sp.mask d.toNat (fun L => op.2 (I.gr.rd d.toNat L) i)
      ∧ SamePreds I.gr G ∧ G.sat = I.gr.sat

/-- R72, R151: the NOP parcels and NOP32 read and write no register, run whatever is pending, and go on to the next instruction; the marker
NOP parks its group exactly while something is pending (R11), but not where the group has a deferred cause to take (R155). The 32-bit encoding of MOV v0, v0 (OR v0, v0, v0) is not exempt: with v0 pending
it takes cause 0x03. -/
def Obligations.NopsAndMarker : Prop :=
  (∀ (s : State) (I : Iss), Issues s I → I.gr.park = .run →
    (Runs .nop s I fun G => SameRegs I.gr G ∧ SamePreds I.gr G ∧ G.sat = I.gr.sat ∧ G.park = .run ∧ StandsAt G (I.sp.pc + 1) I.sp.mask)
    ∧ (Runs .nopMarker s I fun G => SameRegs I.gr G ∧ SamePreds I.gr G ∧ G.sat = I.gr.sat
        ∧ (I.gr.deferred = [] → G.park = (if I.gr.pend = [] then .run else .marker))
        ∧ (I.gr.sup = false → (∃ r ∈ I.gr.deferred, ∃ p ∈ r.lanes, I.sp.mask.getLsbD p.1 = true) → G.park = .run) ∧ StandsAt G (I.sp.pc + 1) I.sp.mask)
    ∧ ∀ m, Runs (.nop32 m) s I fun G => SameRegs I.gr G ∧ SamePreds I.gr G ∧ G.sat = I.gr.sat ∧ StandsAt G (I.sp.pc + 2) I.sp.mask)
  ∧ ∀ (s : State) (I : Iss) (m : Bool), Issues s I → I.gr.sup = false → 0 ∈ I.gr.pend →
    ∃ t, exec (.or m 0 0 0) s = .next t ∧ Trapped t I 0x03 I.sp.mask I.sp.pc false

/-- R82, R118 to R120: compares and predicate logic write predicates of the active lanes only; SEL chooses by lane. `res` is the compare's
outcome; comb 3 writes the partner predicate too. -/
def Obligations.ComparesAndPredicates : Prop :=
  (∀ (m : Bool) (c : BitVec 2) (b a : BitVec 7) (k : BitVec 4) (p : BitVec 3) (s : State) (I : Iss), Issues s I →
    ∀ x ∈ [(Instr.icmpI32 m c b a k p, [(a.toNat, 1), (b.toNat, 1)],
              fun L => icond k.toNat (I.gr.rd a.toNat L).toInt (I.gr.rd b.toNat L).toInt),
           (Instr.icmpN32 m c b a k p, [(a.toNat, 1), (b.toNat, 1)],
              fun L => icond k.toNat (I.gr.rd a.toNat L).toNat (I.gr.rd b.toNat L).toNat),
           (Instr.fcmpF32 m c b a k p, [(a.toNat, 1), (b.toNat, 1)], fun L => fcond k.toNat (I.gr.rd a.toNat L) (I.gr.rd b.toNat L)),
           (Instr.icmpiI32 m c b a k p, [(a.toNat, 1)], fun L => icond k.toNat (I.gr.rd a.toNat L).toInt b.toInt)],
      Usable I.gr x.2.1 →
      Runs x.1 s I fun G => SameRegs I.gr G ∧ G.sat = I.gr.sat
        ∧ (∀ L, I.sp.mask.getLsbD L = true →
            (G.pget p.toNat).getLsbD L = (match c.toNat with
              | 1 => (I.gr.pget p.toNat).getLsbD L && x.2.2 L
              | 2 => (I.gr.pget p.toNat).getLsbD L || x.2.2 L
              | _ => x.2.2 L)
            ∧ (c = 3 → (G.pget (p ^^^ 1).toNat).getLsbD L = !x.2.2 L))
        ∧ (∀ n L, n < 8 → I.sp.mask.getLsbD L = false → (G.pget n).getLsbD L = (I.gr.pget n).getLsbD L)
        ∧ ∀ n, n ≠ p.toNat → (n = (p ^^^ 1).toNat → c ≠ 3) → G.pget n = I.gr.pget n)
  ∧ (∀ (m : Bool) (o : BitVec 4) (b a d : BitVec 3) (s : State) (I : Iss), Issues s I →
      Runs (.plog m o b a d) s I fun G => SameRegs I.gr G ∧ G.sat = I.gr.sat
        ∧ (∀ L, I.sp.mask.getLsbD L = true → (G.pget d.toNat).getLsbD L
            = o.getLsbD (2 * ((I.gr.pget a.toNat).getLsbD L).toNat + ((I.gr.pget b.toNat).getLsbD L).toNat))
        ∧ (∀ L, I.sp.mask.getLsbD L = false → (G.pget d.toNat).getLsbD L = (I.gr.pget d.toNat).getLsbD L)
        ∧ ∀ n, n ≠ d.toNat → G.pget n = I.gr.pget n)
  ∧ ∀ (m : Bool) (n : BitVec 2) (b a d : BitVec 7) (s : State) (I : Iss), Issues s I →
      Usable I.gr [(d.toNat, 1), (a.toNat, 1), (b.toNat, 1)] →
      (Runs (.selP0P3 m n b a d) s I fun G => Writes I.gr G I.sp.mask d.toNat
          (fun L => if (I.gr.pget n.toNat).getLsbD L then I.gr.rd a.toNat L else I.gr.rd b.toNat L) ∧ SamePreds I.gr G ∧ G.sat = I.gr.sat)
      ∧ Runs (.selP4P7 m n b a d) s I fun G => Writes I.gr G I.sp.mask d.toNat
          (fun L => if (I.gr.pget (4 + n.toNat)).getLsbD L then I.gr.rd a.toNat L else I.gr.rd b.toNat L) ∧ SamePreds I.gr G ∧ G.sat = I.gr.sat

/-- R127 to R132: conversions and quantisation: format 12 (i64) names a pair; `stat.sat` records a clamp in an active lane. -/
def Obligations.ConversionsAndQuantisation : Prop :=
  (∀ (m : Bool) (u : BitVec 1) (r t : BitVec 4) (a d : BitVec 7) (s : State) (I : Iss), Issues s I →
    Usable I.gr [(d.toNat, if t = 12 then 2 else 1), (a.toNat, if r = 12 then 2 else 1)] →
    ∀ x ∈ [(Instr.cvt m u r t a d, fun n => cvtValue (u = 1) r.toNat t.toNat n), (Instr.cvtz m u r t a d, fun n => cvtzValue r.toNat t.toNat n)],
      Runs x.1 s I fun G =>
        let v (L : Nat) : Nat × Bool := x.2 (operand I.gr a.toNat (if r = 12 then 2 else 1) L).toNat
        (t = 12 → Writes2 I.gr G I.sp.mask d.toNat fun L => BitVec.ofNat 64 (v L).1)
        ∧ (t ≠ 12 → Writes I.gr G I.sp.mask d.toNat fun L => BitVec.ofNat 32 (v L).1)
        ∧ SamePreds I.gr G ∧ (G.sat = true ↔ I.gr.sat = true ∨ ∃ L, I.sp.mask.getLsbD L = true ∧ (v L).2 = true))
  ∧ (∀ (m : Bool) (b a d : BitVec 7) (s : State) (I : Iss), Issues s I → Usable I.gr [(d.toNat, 2), (a.toNat, 1), (b.toNat, 1)] →
      Runs (.qntFp4b8 m b a d) s I fun G =>
        let blk (L : Nat) : List Nat × Nat := quantB8 (I.gr.quantIn I.sp.mask a (L / 8) 8) (I.gr.bandOf I.sp.mask b (L / 8))
        Writes2 I.gr G I.sp.mask d.toNat (fun L => BitVec.ofNat 32 (blk L).2 ++ packCodes (blk L).1) ∧ SamePreds I.gr G ∧ G.sat = I.gr.sat)
  ∧ (∀ (m : Bool) (a d : BitVec 7) (s : State) (I : Iss), Issues s I → Usable I.gr [(d.toNat, 2), (a.toNat, 1)] →
      Runs (.qntMxfp4 m a d) s I fun G =>
        let r := quantMx (I.gr.quantIn I.sp.mask a 0 32)
        Writes2 I.gr G I.sp.mask d.toNat (fun L => BitVec.ofNat 32 r.2 ++ packCodes ((r.1.drop (8 * (L / 8))).take 8))
          ∧ SamePreds I.gr G ∧ G.sat = I.gr.sat)
  ∧ ∀ (m : Bool) (b a d : BitVec 7) (s : State) (I : Iss), Issues s I → Usable I.gr [(d.toNat, 1), (a.toNat, 2), (b.toNat, 1)] →
      Runs (.dqntFp4b8 m b a d) s I fun G => Writes I.gr G I.sp.mask d.toNat (fun L =>
          wf32 (b8Value (I.gr.bandOf I.sp.mask b (L / 8)) ((I.gr.rd64 a.toNat L).toNat / 2 ^ 32 % 256)
            ((I.gr.rd64 a.toNat L).toNat / 16 ^ (L % 8) % 16)))
        ∧ SamePreds I.gr G ∧ G.sat = I.gr.sat

namespace Sys2Proof.Claims

/-- R133: what lane M supplies for a register: 0 from a v register of a lane outside the mask. -/
def supplied (I : Iss) (code M : Nat) : Word := if code < 96 ∧ I.sp.mask.getLsbD M = false then 0 else I.gr.rd code M

/-- R134: the source lane of LXCH, of the receiving lane and n. -/
def exchanges : List (Op3 × (Nat → Nat → Nat)) :=
  [(.lxchPick, fun _ n => n), (.lxchRotr, fun L n => (L + 32 - n) % 32), (.lxchRotl, fun L n => (L + n) % 32),
   (.lxchRev, fun L n => L ^^^ (2 ^ min n 5 - 1))]

/-- R135: SLIDE, of what lanes supply for a and b, in lane L. -/
def slides : List (Op3 × ((Nat → Word) → (Nat → Word) → Nat → Word)) :=
  [(.slideUp1H, fun a b L => (a L).extractLsb' 0 16 ++ (if 0 < L then a (L - 1) else b 31).extractLsb' 16 16),
   (.slideDn1H, fun a b L => (if L < 31 then a (L + 1) else b 0).extractLsb' 0 16 ++ (a L).extractLsb' 16 16),
   (.slideUp1W, fun a b L => if 0 < L then a (L - 1) else b 31), (.slideDn1W, fun a b L => if L < 31 then a (L + 1) else b 0)]

/-- R136, R137: the instructions that write one result, of the active lanes' values of a, to every active lane (PFX: a result for each). The
list holds the active lanes in ascending order, with their values. -/
def reductions : List (Op2 × (List (Nat × Word) → Nat → Word)) :=
  [(.lmaskSet, fun l _ => (l.filter fun p => p.2 ≠ 0).foldl (fun x p => x ||| (1 <<< p.1)) 0),
   (.lmaskCnt, fun l _ => BitVec.ofNat 32 (l.filter fun p => p.2 ≠ 0).length),
   (.lmaskPfx, fun l L => BitVec.ofNat 32 (l.filter fun p => p.2 ≠ 0 ∧ p.1 < L).length),
   (.lmaskFirst, fun l _ => BitVec.ofNat 32 (((l.find? fun p => p.2 ≠ 0).map Prod.fst).getD 32)),
   (.gredAddI32, fun l _ => (l.map Prod.snd).foldl (· + ·) 0),
   (.gredMaxI32, fun l _ => (l.map Prod.snd).tail.foldl (fun x y => if x.toInt ≤ y.toInt then y else x) ((l.map Prod.snd).headD 0)),
   (.gredMinI32, fun l _ => (l.map Prod.snd).tail.foldl (fun x y => if x.toInt ≤ y.toInt then x else y) ((l.map Prod.snd).headD 0)),
   (.gredAddF32, fun l _ =>
     (iter treeLevel 5 ((List.range 32).map fun M => ((l.find? fun p => p.1 = M).map Prod.snd).getD 0x80000000)).headD 0)]

end Sys2Proof.Claims

/-- R133 to R137: the cross-lane instructions, where only active lanes supply v registers. -/
def Obligations.CrossLaneResults : Prop :=
  (∀ op ∈ exchanges, ∀ (m : Bool) (b a d : BitVec 7) (s : State) (I : Iss), Issues s I →
    Usable I.gr [(d.toNat, 1), (a.toNat, 1), (b.toNat, 1)] →
    Runs (op.1 m b a d) s I fun G =>
      Writes I.gr G I.sp.mask d.toNat (fun L => supplied I a.toNat (op.2 L ((I.gr.rd b.toNat L).toNat % 32)))
        ∧ SamePreds I.gr G ∧ G.sat = I.gr.sat)
  ∧ (∀ op ∈ slides, ∀ (m : Bool) (b a d : BitVec 7) (s : State) (I : Iss), Issues s I →
    Usable I.gr [(d.toNat, 1), (a.toNat, 1), (b.toNat, 1)] →
    Runs (op.1 m b a d) s I fun G => Writes I.gr G I.sp.mask d.toNat (op.2 (supplied I a.toNat) (supplied I b.toNat))
      ∧ SamePreds I.gr G ∧ G.sat = I.gr.sat)
  ∧ ∀ op ∈ reductions, ∀ (m : Bool) (a d : BitVec 7) (s : State) (I : Iss), Issues s I → Usable I.gr [(d.toNat, 1), (a.toNat, 1)] →
    Runs (op.1 m a d) s I fun G =>
      Writes I.gr G I.sp.mask d.toNat (op.2 ((lanes I.sp.mask).map fun L => (L, I.gr.rd a.toNat L))) ∧ SamePreds I.gr G ∧ G.sat = I.gr.sat

/-- R107, R109: the bit-counting results, by the bits of their source, whatever the source: POPC and CLZ count, BREV turns the bits round, FFS
finds the lowest 1, and |a| of the most negative word is that word. -/
def Obligations.BitResults : Prop :=
  ∀ a : Word, (popcW a).toNat = ((List.range 32).filter fun i => a.getLsbD i).length
    ∧ (∀ i, i < 32 → (brevW a).getLsbD i = a.getLsbD (31 - i))
    ∧ (clzW a).toNat ≤ 32 ∧ (∀ i, 32 - (clzW a).toNat ≤ i → i < 32 → a.getLsbD i = false)
    ∧ ((clzW a).toNat < 32 → a.getLsbD (31 - (clzW a).toNat) = true)
    ∧ (ffsW a).toNat ≤ 32 ∧ (∀ i, i < (ffsW a).toNat → a.getLsbD i = false) ∧ ((ffsW a).toNat < 32 → a.getLsbD (ffsW a).toNat = true)
    ∧ absW 0x80000000 = 0x80000000 ∧ (a ≠ 0x80000000 → (absW a).toInt = |a.toInt|)

/-! ### Control, traps and special registers -/

namespace Sys2Proof.Claims

/-- As `StandsAt`, and the split's return stack holds the given entries (R143, R144). -/
def StandsWith (G : Group) (pc : Pc) (mask : Mask) (st : List Word) : Prop :=
  ∃ x, (x ∈ SMap.vals G.slots ∨ x ∈ G.spill) ∧ x.pc = pc ∧ mask &&& ~~~ x.mask = 0 ∧ G.stack x.frame x.depth = st

/-- R90, R254: the sequencer has stopped with a cause, waiting for nothing more, and nothing else has changed. -/
def Stops (i : Instr) (s : State) (c : Nat) (cp : Bool) (cause : BitVec 8) : Prop :=
  exec i s = .next (s.setSeq c cp { (s.core c).seqOf cp with run := .stopped, cause := cause, wait := .none })

/-- R153: where the trap frame of the issuing group begins. -/
def frameOf (s : State) (I : Iss) : Nat := s.frameBase I.gr.ctx I.gr.block

/-- The 32-bit word that the issuing group's die sees at an address. -/
def wordAt (s : State) (I : Iss) (a : Nat) : Word := BitVec.ofNat 32 (s.rdD (dieOf I.c) a 4)

/-- R64: no reduction shadow is open on a sector of `n` bytes from `base`. -/
def NoShadow (s : State) (base n : Nat) : Prop :=
  ∀ h a, base ≤ a → a < base + n → s.shadows.look (holderKey h (sectorOf a)) = none

/-- Memory as the dies see it is unchanged outside `n` bytes from `base`, and so is every local store. -/
def SameMemBut (s t : State) (base n : Nat) : Prop :=
  (∀ d a, a < base ∨ base + n ≤ a → t.dieView d a = s.dieView d a)
    ∧ ∀ c o, SMap.get 0 (t.core c).ls o = SMap.get 0 (s.core c).ls o

/-- The instructions that an engine program may contain (R90, R91, R251). -/
def inEngineProgram (i : Instr) : Bool :=
  match i with
  | .movi .. | .addi .. | .bra .. | .loop .. | .endseq .. | .mma .. | .mldb .. | .acc2t .. | .t2acc .. | .mzero .. | .mperm .. | .mbandW .. | .mbandA ..
  | .bcopyG2l .. | .bcopyL2g .. | .lcopy .. | .cseal .. | .cwait .. | .barArv .. | .tsetup .. | .tfree .. | .tstate .. | .tdrain .. => true
  | _ => false

end Sys2Proof.Claims

namespace Sys2Proof.Claims

/-- R139 to R141: branches change no register, predicate or special register, and no memory; BRA goes to PC + off23, and BRP sends the lanes whose
predicate differs from neg to PC + off19, the others to PC + 2, whether the split divides or not. -/
def Branches : Prop :=
  (∀ (m : Bool) (o : BitVec 23) (s : State) (I : Iss), Issues s I →
    Runs (.bra m o) s I fun G => SameRegs I.gr G ∧ SamePreds I.gr G ∧ G.sat = I.gr.sat
      ∧ StandsWith G (I.sp.pc + BitVec.ofInt 17 o.toInt) I.sp.mask (I.gr.stack I.sp.frame I.sp.depth))
  ∧ ∀ (m : Bool) (o : BitVec 19) (n : BitVec 1) (p : BitVec 3) (s : State) (I : Iss), Issues s I →
    Runs (.brp m o n p) s I fun G => SameRegs I.gr G ∧ SamePreds I.gr G ∧ G.sat = I.gr.sat
      ∧ ∀ L, I.sp.mask.getLsbD L = true →
          StandsAt G (if (I.gr.pget p.toNat).getLsbD L = decide (n = 1) then I.sp.pc + 2 else I.sp.pc + BitVec.ofInt 17 o.toInt) (1 <<< L)

/-- R85, R146, R147: JTAB sends every lane whose index is below n to the table word that its index names, relative to the JTAB, and changes nothing
else; lanes outside take cause 0x20, and a table that leaves the program's region sends the whole split to cause 0x07. -/
def JumpTables : Prop :=
  ∀ (m : Bool) (n : BitVec 9) (a : BitVec 7) (s : State) (I : Iss), Issues s I → Usable I.gr [(a.toNat, 1)] → I.sp.mask ≠ 0 →
    let out (L : Nat) : Prop := (I.gr.rd a.toNat L).toInt < 0 ∨ n.toNat ≤ (I.gr.rd a.toNat L).toInt
    let inside : Prop := (s.region I.c I.gr).1 ≤ I.sp.pc.toNat + 2 ∧ I.sp.pc.toNat + 2 + 2 * n.toNat ≤ (s.region I.c I.gr).2
    (inside → (∀ L, I.sp.mask.getLsbD L = true → ¬ out L) → Runs (.jtab m n a) s I fun G =>
      SameRegs I.gr G ∧ SamePreds I.gr G ∧ G.sat = I.gr.sat
        ∧ ∀ L, I.sp.mask.getLsbD L = true →
            StandsAt G (I.sp.pc + BitVec.ofInt 17 ((s.core I.c).pcWord (I.sp.pc.toNat + 2 + 2 * (I.gr.rd a.toNat L).toNat))) (1 <<< L))
    ∧ (inside → I.gr.sup = false → I.gr.pend = [] → (∃ L, I.sp.mask.getLsbD L = true ∧ out L) →
        ∃ t G, exec (.jtab m n a) s = .next t ∧ t.grp I.c I.g = some G ∧ G.sup = true ∧ G.trapcause = 0x20
          ∧ ∀ L, G.trapmask.getLsbD L = true ↔ I.sp.mask.getLsbD L = true ∧ out L)
    ∧ (¬ inside → I.gr.sup = false → ∃ t, exec (.jtab m n a) s = .next t ∧ Trapped t I 0x07 I.sp.mask I.sp.pc false)

end Sys2Proof.Claims

/-- R85, R139 to R141, R146, R147: branches and jump tables, as `Branches` and `JumpTables` say. -/
def Obligations.BranchesAndJumpTables : Prop := Branches ∧ JumpTables

/-- R144, R145, R153: CALL keeps PC + 2 as the newest entry of the split's return stack and goes to PC + off23; RET drops the newest entry and goes to
it. At 16 entries CALL takes cause 0x21, and RET of an empty stack 0x22. R153: in a handler they use the 16 words of sret in the trap frame: CALL
stores PC + 2 in word `depth` and nothing else in memory, and RET goes to the word below `depth` and stores nothing. -/
def Obligations.CallsAndReturns : Prop :=
  (∀ (m : Bool) (o : BitVec 23) (s : State) (I : Iss), Issues s I → I.gr.sup = false →
    (I.sp.depth < 16 → Runs (.call m o) s I fun G => SameRegs I.gr G ∧ SamePreds I.gr G ∧ G.sat = I.gr.sat
      ∧ StandsWith G (I.sp.pc + BitVec.ofInt 17 o.toInt) I.sp.mask (I.gr.stack I.sp.frame I.sp.depth ++ [(I.sp.pc + 2).setWidth 32]))
    ∧ (16 ≤ I.sp.depth → ∃ t, exec (.call m o) s = .next t ∧ Trapped t I 0x21 I.sp.mask I.sp.pc false)
    ∧ (∀ st x, I.gr.stack I.sp.frame I.sp.depth = st ++ [x] → Runs (.ret m) s I fun G =>
        SameRegs I.gr G ∧ SamePreds I.gr G ∧ G.sat = I.gr.sat ∧ StandsWith G (x.setWidth 17) I.sp.mask st)
    ∧ (I.sp.depth = 0 → ∃ t, exec (.ret m) s = .next t ∧ Trapped t I 0x22 I.sp.mask I.sp.pc false))
  ∧ ∀ (m : Bool) (o : BitVec 23) (s : State) (I : Iss), Issues s I → I.gr.sup = true →
    (I.sp.depth < 16 → ∃ t G, exec (.call m o) s = .next t ∧ t.grp I.c I.g = some G ∧ Kept I.gr G ∧ SameRegs I.gr G ∧ SamePreds I.gr G
      ∧ (NoShadow s (frameOf s I + 0x440 + 4 * I.sp.depth) 4 → SameMemBut s t (frameOf s I + 0x440 + 4 * I.sp.depth) 4)
      ∧ (∀ d, t.rdD d (frameOf s I + 0x440 + 4 * I.sp.depth) 4 = I.sp.pc.toNat + 2 ∨ 2 ^ 17 ≤ I.sp.pc.toNat + 2)
      ∧ ∃ x, x ∈ SMap.vals G.slots ∧ x.pc = I.sp.pc + BitVec.ofInt 17 o.toInt ∧ x.depth = I.sp.depth + 1)
    ∧ (0 < I.sp.depth → Runs (.ret m) s I fun G => SameRegs I.gr G ∧ SamePreds I.gr G ∧ G.sat = I.gr.sat
      ∧ ∃ x, x ∈ SMap.vals G.slots ∧ x.pc = (wordAt s I (frameOf s I + 0x440 + 4 * (I.sp.depth - 1))).setWidth 17 ∧ x.depth = I.sp.depth - 1)

/-- R148: LOOP leaves a counter of 0 at 0 and goes on to PC + 2; otherwise it counts down by 1 and goes to PC - off18 exactly when the counter
has not become 0. Only the counter is written. -/
def Obligations.LoopCounts : Prop :=
  ∀ (m : Bool) (o : BitVec 18) (c : BitVec 5) (s : State) (I : Iss), Issues s I → Usable I.gr [(96 + c.toNat, 1)] →
    Runs (.loop m o c) s I fun G =>
      (∀ r L, G.vget r L = I.gr.vget r L) ∧ (∀ r, r ≠ c.toNat → G.sget r = I.gr.sget r) ∧ SamePreds I.gr G ∧ G.sat = I.gr.sat
      ∧ (I.gr.sget c.toNat = 0 → G.sget c.toNat = 0 ∧ StandsAt G (I.sp.pc + 2) I.sp.mask)
      ∧ (I.gr.sget c.toNat ≠ 0 → G.sget c.toNat = I.gr.sget c.toNat - 1
          ∧ StandsAt G (if I.gr.sget c.toNat - 1 ≠ 0 then I.sp.pc - o.setWidth 17 else I.sp.pc + 2) I.sp.mask)

namespace Sys2Proof.Claims

/-- R149: in user mode EXIT removes the split's lanes from the group: they are recorded as exited, the split's slot no longer holds it, and no
register, predicate or memory changes. -/
def ExitInUserMode : Prop :=
  ∀ (m : Bool) (s : State) (I : Iss), Issues s I → I.gr.sup = false →
    ∃ G t, exec (.exit m) s = .next t ∧ t = s.setGrp I.c I.g G ∧ SameMem s t ∧ SameRegs I.gr G ∧ SamePreds I.gr G ∧ G.sat = I.gr.sat
      ∧ G.exited = I.gr.exited ||| I.sp.mask ∧ Kept I.gr { G with exited := I.gr.exited }
      ∧ (I.gr.spill = [] → (∀ p ∈ I.gr.slots, p.1 = I.k) → G.slots = [] ∧ G.spill = [])

/-- R11, R151, R186: WAITALL, YIELD and FENCE stand at the next instruction and park their group: WAITALL until its operations are done, FENCE until
they are at the scope that it names, YIELD until the groups noted have issued or 64 clk have passed. A YIELD notes exactly the other ready
groups of its quarter. R189: a FENCE of kind .ar makes the atomic that its split issued before it, where that is still outstanding, ordered. -/
def ParkingInstructions : Prop :=
  ∀ (m : Bool) (s : State) (I : Iss), Issues s I →
    (Runs (.waitall m) s I fun G => SameRegs I.gr G ∧ SamePreds I.gr G ∧ G.sat = I.gr.sat ∧ StandsAt G (I.sp.pc + 2) I.sp.mask
        ∧ G.park = .waitall ∧ G.parkMark = m)
    ∧ (∀ (k : BitVec 2) (c : BitVec 3), (k = 0 → ∀ id, I.sp.lastAtom = some id → s.ops.look id = none) →
        Runs (.fence m k c) s I fun G => SameRegs I.gr G ∧ SamePreds I.gr G ∧ G.sat = I.gr.sat
        ∧ StandsAt G (I.sp.pc + 2) I.sp.mask ∧ G.park = .fence k (scopeOf c) s.serial ∧ G.parkMark = m)
    ∧ (∀ (c : BitVec 3) (id : Nat) (o : Op) (a : AtomOp) (ret ord : Bool), I.sp.lastAtom = some id → s.ops.look id = some o →
        o.kind = .atomic a ret ord → ∃ t G, exec (.fence m 0 c) s = .next t ∧ SameMem s t ∧ t.grp I.c I.g = some G ∧ SameRegs I.gr G
          ∧ SamePreds I.gr G ∧ G.sat = I.gr.sat ∧ Kept I.gr G ∧ StandsAt G (I.sp.pc + 2) I.sp.mask
          ∧ G.park = .fence 0 (scopeOf c) s.serial ∧ t.ops.look id = some { o with kind := .atomic a ret true })
    ∧ Runs (.yield m) s I fun G => SameRegs I.gr G ∧ SamePreds I.gr G ∧ G.sat = I.gr.sat ∧ StandsAt G (I.sp.pc + 2) I.sp.mask
        ∧ G.parkMark = m ∧ ∃ noted, G.park = .yield noted (s.clkOf I.c + 64)
            ∧ ∀ u, u ∈ noted ↔ ∃ p ∈ (s.core I.c).groups, p.2.uid = u ∧ p.1 / 12 = I.g / 12 ∧ p.1 ≠ I.g ∧ s.groupReady I.c p.2 = true

end Sys2Proof.Claims

/-- R11, R149, R151, R186: EXIT in user mode, and the instructions that park their group, as `ExitInUserMode` and `ParkingInstructions` say. -/
def Obligations.ExitAndParking : Prop := ExitInUserMode ∧ ParkingInstructions

/-- R10, R88: an instruction of two word sources that names a register whose flag is pending takes cause 0x03, and one that names a v register at or
above v(n) takes 0x04 where nothing is pending among its operands; either with its PC at the instruction, in all its lanes, and done = 0. -/
def Obligations.OperandCauses : Prop :=
  ∀ op ∈ binary, ∀ (m : Bool) (b a d : BitVec 7) (s : State) (I : Iss), Issues s I → I.gr.sup = false →
    ((d.toNat ∈ I.gr.pend ∨ a.toNat ∈ I.gr.pend ∨ b.toNat ∈ I.gr.pend) →
      ∃ t, exec (op.1 m b a d) s = .next t ∧ Trapped t I 0x03 I.sp.mask I.sp.pc false)
    ∧ (d.toNat ∉ I.gr.pend → a.toNat ∉ I.gr.pend → b.toNat ∉ I.gr.pend → (∃ r ∈ [d, a, b], r.toNat < 96 ∧ I.gr.nregs ≤ r.toNat) →
      ∃ t, exec (op.1 m b a d) s = .next t ∧ Trapped t I 0x04 I.sp.mask I.sp.pc false)

/-- R158: `trap #k` has k in [13:9] (`trap #5` is 0x00000B01) and raises cause 0xC0 + k in every active lane, with the next instruction as the place to resume and done = 1; R152, R153: the
frame then holds v0 to v7, p0 to p7 and s0 to s7 as they were, no other byte of memory changes (where no reduction shadow of the frame's sectors is
rounded by it, R65), and every register keeps its value. -/
def Obligations.TrapEntry : Prop :=
  encode (.trap false 5) = some (0x00000B01, 2) ∧ (∀ k, encode (.trap false k) = some (0x00000101 + k.toNat * 2 ^ 9, 2))
  ∧ ∀ (m : Bool) (k : BitVec 5) (s : State) (I : Iss), Issues s I → I.gr.sup = false →
    ∃ t G, exec (.trap m k) s = .next t ∧ t.grp I.c I.g = some G ∧ SameRegs I.gr G ∧ SamePreds I.gr G ∧ G.sat = I.gr.sat
      ∧ Trapped t I (0xC0 + k.setWidth 8) I.sp.mask (I.sp.pc + 2) true
      ∧ (I.gr.pend = [] → (NoShadow s (frameOf s I) 0x440 → SameMemBut s t (frameOf s I) 0x440)
          ∧ ∀ d, (∀ L j, L < 32 → j < 8 → t.rdD d (frameOf s I + 0x20 * L + 4 * j) 4 = (I.gr.vget j L).toNat)
            ∧ (∀ j, j < 8 → t.rdD d (frameOf s I + 0x400 + 4 * j) 4 = (I.gr.pget j).toNat)
            ∧ ∀ j, j < 8 → t.rdD d (frameOf s I + 0x420 + 4 * j) 4 = (I.gr.sget j).toNat)
      ∧ (I.gr.pend ≠ [] → SameMem s t)

/-- R157: RFT takes v0 to v7, p0 to p7 and s0 to s7 from the frame, whatever it holds, clears `stat.sup`, and lets the lanes of `trapsplit` that
the split held at entry resume at its PC, with its depth; EXIT in a handler does the same without the lanes of `trapmask`, which exit. In user mode
RFT takes cause 0x0A. (The model's choices: lanes that `trapsplit` leaves out have exited, log 32; how the parts of a handler that divided leave it, log 73.) -/
def Obligations.LeavingAHandler : Prop :=
  (∀ (m : Bool) (s : State) (I : Iss) (i : Instr) (gone : Mask), Issues s I → I.gr.sup = true →
    (i = .rft m ∧ gone = 0 ∨ i = .exit m ∧ gone = I.gr.trapmask &&& I.gr.entryMask) →
    ∃ G t, exec i s = .next t ∧ t = s.setGrp I.c I.g G ∧ SameMem s t ∧ G.sup = false ∧ G.sat = I.gr.sat ∧ G.pend = I.gr.pend
      ∧ (∀ L j, L < 32 → j < 8 → G.vget j L = wordAt s I (frameOf s I + 0x20 * L + 4 * j))
      ∧ (∀ L j, 8 ≤ j → G.vget j L = I.gr.vget j L)
      ∧ (∀ j, j < 8 → G.pget j = wordAt s I (frameOf s I + 0x400 + 4 * j))
      ∧ (∀ j, j < 8 → G.sget j = wordAt s I (frameOf s I + 0x420 + 4 * j)) ∧ (∀ j, 8 ≤ j → G.sget j = I.gr.sget j)
      ∧ ∃ mask, mask = I.gr.trapsplit.extractLsb' 0 32 &&& I.gr.entryMask &&& ~~~ gone
          ∧ G.exited = I.gr.exited ||| (I.gr.entryMask &&& ~~~ mask)
          ∧ (mask ≠ 0 → ∃ x, (x ∈ SMap.vals G.slots ∨ x ∈ G.spill) ∧ x.pc = I.gr.trapsplit.extractLsb' 32 17 ∧ mask &&& ~~~ x.mask = 0
              ∧ x.depth = (I.gr.trapsplit.extractLsb' 57 5).toNat))
  ∧ ∀ (m : Bool) (s : State) (I : Iss), Issues s I → I.gr.sup = false →
      ∃ t, exec (.rft m) s = .next t ∧ Trapped t I 0x0A I.sp.mask I.sp.pc false

/-- R152, R153, R157: a trap and the RFT of its handler, with nothing between them, give the group back every register and every predicate, and its
lanes go on at the instruction after the TRAP. (The premises: the trap frame does not overlap the context's quota record, which tells where the
frame is, and no reduction shadow is open on it.) -/
def Obligations.TrapRoundTrip : Prop :=
  ∀ (m m' : Bool) (k : BitVec 5) (s t : State) (I J : Iss), Issues s I → I.gr.sup = false → I.gr.pend = [] → I.sp.mask ≠ 0 →
    ((s.ctx I.gr.ctx).quota + 0x68 ≤ frameOf s I ∨ frameOf s I + 0x440 ≤ (s.ctx I.gr.ctx).quota) → NoShadow s (frameOf s I) 0x440 →
    exec (.trap m k) s = .next t → Issues { t with cur := some (.split I.c I.g J.k) } J → J.c = I.c → J.g = I.g → J.k = J.gr.handlerSlot →
    ∃ G u, exec (.rft m') { t with cur := some (.split I.c I.g J.k) } = .next u ∧ u.grp I.c I.g = some G
      ∧ SameRegs I.gr G ∧ SamePreds I.gr G ∧ G.sat = I.gr.sat ∧ G.sup = false ∧ G.exited = I.gr.exited ∧ StandsAt G (I.sp.pc + 2) I.sp.mask

namespace Sys2Proof.Claims

/-- R13 to R22: the special registers of 32 bits that any mode may read, with their values in a lane. -/
def selectors (s : State) (I : Iss) (L : Nat) : List (Nat × Word) :=
  [(0x00, BitVec.ofNat 32 L), (0x01, BitVec.ofNat 32 I.gr.gid),
   (0x02, BitVec.ofNat 32 ((s.core I.c).groups.filter fun p => p.2.wg = I.gr.wg).length),
   (0x08, BitVec.ofNat 32 (I.gr.sat.toNat + I.gr.sup.toNat * 2 ^ 31)), (0x09, BitVec.ofNat 32 (s.core I.c).narrow.toNat),
   (0x0A, if (s.core I.c).stacked = true ∧ (s.core I.c).split = false then 0x200000 else 0x100000), (0x0E, I.gr.pfdrop)]

/-- Selectors of R13 that name no register. -/
def noSelector (e : Nat) : Prop := (0x05 ≤ e ∧ e ≤ 0x07) ∨ e = 0x0F ∨ 0x14 ≤ e

end Sys2Proof.Claims

/-- R13 to R22, R160: GETS reads the special registers: those of `selectors`; `wid`, by halves; `elastic` and `attach.free`; `ctxinfo`; and in
supervisor mode the trap registers, of which `trapaddr` and `trapsplit` fill a pair. In user mode a trap register takes cause 0x05; an unassigned
selector takes 0x02. -/
def Obligations.GetsReads : Prop :=
  ∀ (m : Bool) (e : BitVec 6) (d : BitVec 7) (s : State) (I : Iss), Issues s I →
    let Gives (v : Nat → Word) : Prop :=
      Runs (.gets m e d) s I fun G => Writes I.gr G I.sp.mask d.toNat v ∧ SamePreds I.gr G ∧ G.sat = I.gr.sat
    let Gives2 (v : Nat → Dword) : Prop :=
      Runs (.gets m e d) s I fun G => Writes2 I.gr G I.sp.mask d.toNat v ∧ SamePreds I.gr G ∧ G.sat = I.gr.sat
    (Usable I.gr [(d.toNat, 1)] →
      (∀ v : Nat → Word, (∀ L, (e.toNat, v L) ∈ selectors s I L) → Gives v)
      ∧ (∀ w, s.wgOf I.c I.gr.wg = some w →
          (e = 0x03 → Gives fun L => (w.wid I.gr.gid L).extractLsb' 0 32) ∧ (e = 0x04 → Gives fun L => (w.wid I.gr.gid L).extractLsb' 32 32)
          ∧ (e = 0x0B → Gives fun _ => BitVec.ofNat 32 (w.shrinkTarget % 64 + w.shrinkReq.toNat * 2 ^ 31))
          ∧ (e = 0x0C → Gives fun _ => BitVec.ofNat 32 (s.attachFree I.c I.gr.wg)))
      ∧ (e = 0x0D → Gives fun _ => BitVec.ofNat 32 (I.gr.ctx % 64 + (if (s.core I.c).split then (s.core I.c).half else 0) * 256))
      ∧ (I.gr.sup = true → (e = 0x10 → Gives fun _ => I.gr.trapcause.setWidth 32) ∧ (e = 0x12 → Gives fun _ => I.gr.trapmask))
      ∧ (I.gr.sup = false → (e = 0x10 ∨ e = 0x12) → ∃ t, exec (.gets m e d) s = .next t ∧ Trapped t I 0x05 I.sp.mask I.sp.pc false))
    ∧ (Usable I.gr [(d.toNat, 2)] →
        (I.gr.sup = true → (e = 0x11 → Gives2 fun L => SMap.get 0 I.gr.trapaddr L) ∧ (e = 0x13 → Gives2 fun _ => I.gr.trapsplit))
        ∧ (I.gr.sup = false → (e = 0x11 ∨ e = 0x13) → ∃ t, exec (.gets m e d) s = .next t ∧ Trapped t I 0x05 I.sp.mask I.sp.pc false))
    ∧ (I.gr.sup = false → noSelector e.toNat → ∃ t, exec (.gets m e d) s = .next t ∧ Trapped t I 0x02 I.sp.mask I.sp.pc false)

/-- R13 to R21, R160: SETS writes `stat.sat` in any mode, and `pfdrop` and the trap registers in supervisor mode, from the lowest active lane
(`trapaddr`: each active lane's own); bits 63 to 52 of `trapsplit` keep their value. A register that may not be written takes cause 0x06. -/
def Obligations.SetsWrites : Prop :=
  ∀ (m : Bool) (e : BitVec 6) (a : BitVec 7) (s : State) (I : Iss), Issues s I →
    let x := I.gr.rd a.toNat (lowest I.sp.mask)
    let xx := I.gr.rd64 a.toNat (lowest I.sp.mask)
    let Same (G : Group) : Prop := SameRegs I.gr G ∧ SamePreds I.gr G ∧ G.sup = I.gr.sup ∧ G.pend = I.gr.pend ∧ G.exited = I.gr.exited
    let Ends (P : Group → Prop) : Prop := ∃ G t, exec (.sets m e a) s = .next t ∧ t = s.setGrp I.c I.g G ∧ SameMem s t ∧ Same G ∧ P G
    (Usable I.gr [(a.toNat, 1)] →
      (e = 0x08 → Ends fun G => G.sat = x.getLsbD 0 ∧ Kept I.gr G)
      ∧ (I.gr.sup = true → e = 0x0E → Ends fun G => G.pfdrop = x ∧ G.sat = I.gr.sat ∧ Kept I.gr { G with pfdrop := I.gr.pfdrop })
      ∧ (I.gr.sup = true → e = 0x10 → Ends fun G =>
          G.trapcause = x.extractLsb' 0 8 ∧ G.sat = I.gr.sat ∧ Kept I.gr { G with trapcause := I.gr.trapcause })
      ∧ (I.gr.sup = true → e = 0x12 → Ends fun G => G.trapmask = x ∧ G.sat = I.gr.sat ∧ Kept I.gr { G with trapmask := I.gr.trapmask })
      ∧ (I.gr.sup = false → (e.toNat ≤ 0x04 ∨ (0x09 ≤ e.toNat ∧ e.toNat ≤ 0x0E)) →
          ∃ t, exec (.sets m e a) s = .next t ∧ Trapped t I 0x06 I.sp.mask I.sp.pc false)
      ∧ (I.gr.sup = false → (e = 0x10 ∨ e = 0x12) → ∃ t, exec (.sets m e a) s = .next t ∧ Trapped t I 0x05 I.sp.mask I.sp.pc false))
    ∧ (I.gr.sup = false → noSelector e.toNat → ∃ t, exec (.sets m e a) s = .next t ∧ Trapped t I 0x02 I.sp.mask I.sp.pc false)
    ∧ (Usable I.gr [(a.toNat, 2)] → I.gr.sup = true →
      (e = 0x11 → Ends fun G => (∀ L, L < 32 → SMap.get 0 G.trapaddr L
          = if I.sp.mask.getLsbD L then I.gr.rd64 a.toNat L else SMap.get 0 I.gr.trapaddr L)
        ∧ G.sat = I.gr.sat ∧ Kept I.gr { G with trapaddr := I.gr.trapaddr })
      ∧ (e = 0x13 → Ends fun G => G.trapsplit.extractLsb' 0 52 = xx.extractLsb' 0 52
        ∧ G.trapsplit.extractLsb' 52 10 = I.gr.trapsplit.extractLsb' 52 10
        ∧ G.sat = I.gr.sat ∧ Kept I.gr { G with trapsplit := I.gr.trapsplit }))

/-- R163: in supervisor mode HALT ends every workgroup of the gang of the issuing group's workgroup, on whatever core, and sends the control processor
a halt record with its identifier fields, `trapcause` and `trapsplit`; in user mode it takes cause 0x05. R156, R170: a cause raised in supervisor
mode enters no handler: TRAP there stops the context on the core, so that no workgroup of it stays there, with an error record of code
0xEC. -/
def Obligations.HaltAndDoubleTrap : Prop :=
  (∀ (m : Bool) (s : State) (I : Iss), Issues s I →
    (∀ w, I.gr.sup = true → s.wgOf I.c I.gr.wg = some w →
      ∃ t, exec (.halt m) s = .next t
        ∧ (∀ c n x, s.wgOf c n = some x → x.gang = w.gang → t.wgOf c n = none)
        ∧ { ctx := w.ctx, fields := w.rank :: w.coords, cause := I.gr.trapcause, trapsplit := I.gr.trapsplit } ∈ t.regs.halts
        ∧ (∀ r ∈ s.regs.halts, r ∈ t.regs.halts))
    ∧ (I.gr.sup = false → ∃ t, exec (.halt m) s = .next t ∧ Trapped t I 0x05 I.sp.mask I.sp.pc false))
  ∧ ∀ (m : Bool) (k : BitVec 5) (s : State) (I : Iss), Issues s I → I.gr.sup = true →
    ∃ t, exec (.trap m k) s = .next t ∧ (∀ w x, s.wgOf I.c w = some x → x.ctx = I.gr.ctx → t.wgOf I.c w = none)
      ∧ ((s.regs.erTail - s.regs.erHead).toNat < 2 ^ s.regs.erSize → s.regs.erSize ≤ 14 → (∀ c, ∀ p ∈ (s.core c).groups, p.2.report = []) →
          (∀ im ∈ s.images, ∀ p ∈ im.groups, p.2.report = []) →
          ∃ n, n < 2 ^ s.regs.erSize ∧ recordAt t.regs n % 2 ^ 12 = 0x1EC ∧ recordAt t.regs n / 2 ^ 19 % 64 = I.gr.ctx % 64)

/-- R89, R90, R116, R117, R140, R148, R253: what a sequencer does with the instructions that it shares with groups, in its own s0 to s15; any other
encoded instruction, and a marker, stops it with cause 0x08, and nothing else changes. -/
def Obligations.SequencerPrograms : Prop :=
  (∀ (i : Instr) (s : State) (c : Nat) (cp : Bool), encode i ≠ none → inEngineProgram i = false → s.cur = some (.seq c cp) →
    ((s.core c).seqOf cp).run = .running → Stops i s c cp 0x08)
  ∧ ∀ (s : State) (c : Nat) (cp : Bool) (q : Sequencer), s.cur = some (.seq c cp) → q = (s.core c).seqOf cp →
    let Goes (i : Instr) (pc : Pc) (r : Nat) (x : Word) : Prop := ∃ Q, exec i s = .next (s.setSeq c cp Q) ∧ Q.pc = pc ∧ Q.run = q.run
      ∧ Q.owner = q.owner ∧ Q.cause = q.cause ∧ (∀ k, 96 ≤ k → k < 112 → Q.rd k = if k = r then x else q.rd k)
    (∀ (i : BitVec 16) (d : BitVec 7), 96 ≤ d.toNat → d.toNat < 112 → Goes (.movi false i d) (q.pc + 2) d.toNat (i.signExtend 32))
    ∧ (∀ (i : BitVec 9) (a d : BitVec 7), 96 ≤ d.toNat → d.toNat < 112 → 96 ≤ a.toNat → a.toNat < 112 →
        Goes (.addi false i a d) (q.pc + 2) d.toNat (q.rd a.toNat + i.signExtend 32))
    ∧ (∀ o : BitVec 23, Goes (.bra false o) (q.pc + BitVec.ofInt 17 o.toInt) 0 0)
    ∧ (∀ (o : BitVec 18) (n : BitVec 5), n.toNat < 16 → Goes (.loop false o n)
        (if q.rd (96 + n.toNat) = 0 ∨ q.rd (96 + n.toNat) = 1 then q.pc + 2 else q.pc - o.setWidth 17) (96 + n.toNat)
        (if q.rd (96 + n.toNat) = 0 then 0 else q.rd (96 + n.toNat) - 1))
    ∧ (q.run = .running → (∀ (i : BitVec 16) (d : BitVec 7), Stops (.movi true i d) s c cp 0x08) ∧ (∀ o, Stops (.bra true o) s c cp 0x08)
      ∧ ∀ (o : BitVec 18) (n : BitVec 5), 16 ≤ n.toNat → Stops (.loop false o n) s c cp 0x08)

/-! ### Memory -/

namespace Sys2Proof.Claims

/-- R177, R352: every access of a list translates and is permitted. -/
def Clear (rs : List Ref) : Prop := ∀ r ∈ rs, r.res.kinds = [] ∧ r.res.wait = none

/-- R351: every translation of a page that the accesses write already has its dirty bit. -/
def Dirtied (s : State) (I : Iss) (rs : List Ref) : Prop :=
  ∀ r ∈ rs, ∀ p, r.res.page = some p → ∀ e, (e ∈ (s.core I.c).tlb ∨ e ∈ (s.die (dieOf I.c)).tlb) → e.covers I.gr.ctx p = true →
    e.leaf.getLsbD 5 = true

/-- R358: an address outside the queue of access-counter notifications. -/
def OutsideNq (s : State) (a : Nat) : Prop := a < s.regs.nqBase.toNat ∨ s.regs.nqBase.toNat + 16 * 2 ^ s.regs.nqSize ≤ a

/-- Memory as every die sees it is unchanged outside the queue of access-counter notifications, and so are the local stores. -/
def QuietMem (s t : State) : Prop :=
  (∀ d a, OutsideNq s a → t.dieView d a = s.dieView d a) ∧ ∀ c o, SMap.get 0 (t.core c).ls o = SMap.get 0 (s.core c).ls o

/-- What an access is, apart from its value. -/
def accessOf (l : LaneAcc) : Nat × Space × List Nat × List Word := (l.lane, l.space, l.pas, l.arg)
def accessFor (arg : Nat → List Word) (r : Ref) : Nat × Space × List Nat × List Word := (r.lane, r.res.space, r.res.pas, arg r.lane)

/-- A memory instruction issues: its group goes on, with the destination registers `new` pending besides those that were, and an
operation is outstanding with the accesses of its lanes. Of the group, only pending flags and the count of dropped prefetches change;
memory is as a test says. -/
def IssuesOp (i : Instr) (s : State) (I : Iss) (kind : OpKind) (sc : Scope) (new : List Nat) (rs : List Ref) (arg : Nat → List Word)
    (M : State → Prop) : Prop :=
  ∃ t G o, exec i s = .next t ∧ t.grp I.c I.g = some G ∧ SameRegs I.gr G ∧ SamePreds I.gr G ∧ G.sat = I.gr.sat
    ∧ Kept I.gr { G with pend := I.gr.pend, pfdrop := I.gr.pfdrop } ∧ StandsAt G (I.sp.pc + 2) I.sp.mask
    ∧ (∀ r, r ∈ G.pend ↔ r ∈ I.gr.pend ∨ r ∈ new)
    ∧ t.ops.look s.serial = some o ∧ o.uid = I.gr.uid ∧ o.ctx = I.gr.ctx ∧ o.core = I.c ∧ o.kind = kind ∧ o.scope = sc ∧ o.mask = I.sp.mask
    ∧ o.lanes.map accessOf = rs.map (accessFor arg) ∧ M t

/-- The registers of an operand of a size (R80). -/
def registers (d : BitVec 7) (n : Nat) : List Nat := fromN d.toNat n

/-- R181: the accesses of LDX, from the address pair and the element index in d. -/
def ldxRefs (s : State) (I : Iss) (z : BitVec 3) (a : BitVec 6) (d : BitVec 7) : List Ref :=
  (I.accessLanes d.toNat).map fun L =>
    let va := (I.gr.rd64 (a6 a) L).toNat
    Ref.mk L va (s.resolveLdx I.c I.gr L va ((I.gr.rd d.toNat L).toNat % 512) (decide (z = 3)))

/-- R179: the bytes that a store writes to one store (none: memory), lane after lane. -/
def storeCells (I : Iss) (v : BitVec 7) (n : Nat) (rs : List Ref) (b : Option Nat) : List (Nat × Byte) :=
  (rs.filter fun r => r.res.space.bank = b).flatMap fun r => r.res.pas.zip ((I.gr.rdN v.toNat n r.lane).flatMap fun w => toBytes 4 w.toNat)

/-- The last byte that a list writes to an address. -/
def lastByte (l : List (Nat × Byte)) (a : Nat) : Option Byte := ((l.filter fun p => p.1 = a).getLast?).map Prod.snd

/-- R239, R263, R279: nothing earlier of the group holds an access back: no operation outstanding, and no exchange. -/
def NothingEarlier (s : State) (uid : Nat) : Prop :=
  (∀ p ∈ s.ops, p.2.uid ≠ uid) ∧ ∀ p ∈ s.members, p.2.exchange = true → ∀ i ∈ p.2.issues, i.uid ≠ uid

/-- R187: the atomics, with the registers of their results and operands. -/
def atomics : List ((Bool → BitVec 3 → BitVec 7 → BitVec 6 → BitVec 7 → Instr) × AtomOp × Nat × Nat) :=
  [(.atomAddI32, .addI32, 1, 1), (.atomMinI32, .minI32, 1, 1), (.atomMaxI32, .maxI32, 1, 1), (.atomMinN32, .minN32, 1, 1),
   (.atomMaxN32, .maxN32, 1, 1), (.atomAnd, .and, 1, 1), (.atomOr, .or, 1, 1), (.atomXor, .xor, 1, 1), (.atomXchg, .xchg, 1, 1),
   (.atomCas, .cas, 1, 2), (.atomAddI64, .addI64, 2, 2), (.atomCasI64, .casI64, 2, 4), (.atomFaddF32, .faddF32, 1, 1)]

/-- R190: the reductions, with the registers of their operands and, for those through a shadow, the page formats. -/
def reductionOps : List ((Bool → BitVec 3 → BitVec 7 → BitVec 6 → Instr) × AtomOp × Nat × Option (List Nat)) :=
  [(.redAddI32, .addI32, 1, none), (.redAddI64, .addI64, 2, none), (.redMinI32, .minI32, 1, none), (.redMaxI32, .maxI32, 1, none),
   (.redMinN32, .minN32, 1, none), (.redMaxN32, .maxN32, 1, none), (.redAnd, .and, 1, none), (.redOr, .or, 1, none),
   (.redXor, .xor, 1, none), (.redFaddF32, .faddF32, 1, none), (.redFaddBf16x2, .faddBf16x2, 1, some [7]),
   (.redFaddFp8, .faddFp8, 1, some [9, 10])]

/-- R63, R190: whether an access meets what a reduction through a shadow asks of its page. -/
def shadowFits (f : Option (List Nat)) (r : Ref) : Prop :=
  ∀ l, f = some l → r.res.space ≠ .host ∧ (∀ c, r.res.space ≠ .loc c) ∧ (∀ w, r.res.space ≠ .window w)
    ∧ (r.res.page ≠ none → leafFmt r.res.attr.toNat ∈ l ∧ leafGeom r.res.attr.toNat = 0)

end Sys2Proof.Claims

/-- R9, R70, R177, R178, R180 to R182: a load whose addresses translate and are permitted makes its destination registers pending and leaves an
operation outstanding with the address of each lane (LDS: of the lowest lane, and so does any load into an s register), and the group goes
on; no register and, with no reduction shadow rounded by it, no byte of memory changes. R182: PREF writes no register, leaves nothing pending and
takes no cause for its addresses; it does nothing for addresses of the stack and local apertures. R354: where its walks find no room its split
waits for them. -/
def Obligations.LoadsIssue : Prop :=
  (∀ (m : Bool) (x o : BitVec 1) (h : BitVec 2) (c z : BitVec 3) (a : BitVec 6) (d : BitVec 7) (s : State) (I : Iss), Issues s I →
    I.sp.acq = [] → Usable I.gr [(d.toNat, sizeRegs z), (a6 a, 2)] →
    let rs := I.refs s (a6 a) (if 96 ≤ d.toNat then [lowest I.sp.mask] else lanes I.sp.mask) (2 ^ z.toNat) reading
    let r1 := I.refs s (a6 a) [lowest I.sp.mask] (2 ^ z.toNat) reading
    let rx := ldxRefs s I z a d
    let M (t : State) : Prop := s.shadows = [] → QuietMem s t
    (Clear rs → IssuesOp (.ld m x o h c z a d) s I (.load (2 ^ z.toNat) (decide (x = 1)) (decide (o = 1))) (scopeOf c)
      (registers d (sizeRegs z)) rs (fun _ => []) M)
    ∧ (Clear r1 → IssuesOp (.lds m o h c z a d) s I (.load (2 ^ z.toNat) false (decide (o = 1))) (scopeOf c)
      (registers d (sizeRegs z)) r1 (fun _ => []) M)
    ∧ (Clear rx → IssuesOp (.ldx m x o h c z a d) s I (.ldx (decide (z = 3)) (decide (o = 1))) (scopeOf c)
      (registers d (sizeRegs z)) rx (fun L => [BitVec.ofNat 32 ((I.gr.rd d.toNat L).toNat % 512)]) M))
  ∧ ∀ (m : Bool) (h : BitVec 2) (c : BitVec 3) (a : BitVec 6) (s : State) (I : Iss), Issues s I → I.sp.acq = [] →
    Usable I.gr [(a6 a, 2)] →
    let walks := I.prefWalks s ((lanes I.sp.mask).map fun L => (I.gr.rd64 (a6 a) L).toNat)
    (s.walkRoom (dieOf I.c) I.gr.ctx walks = false → ∃ t G, exec (.pref m h c a) s = .next t ∧ t.grp I.c I.g = some G ∧ SameRegs I.gr G
      ∧ SamePreds I.gr G ∧ Kept I.gr G ∧ SameMem s t ∧ ∃ x, G.slots.look I.k = some x ∧ x.pc = I.sp.pc ∧ x.mask = I.sp.mask ∧ x.wait = .walk walks)
    ∧ (s.walkRoom (dieOf I.c) I.gr.ctx walks = true → ∃ t G, exec (.pref m h c a) s = .next t ∧ t.grp I.c I.g = some G ∧ SameRegs I.gr G ∧ SamePreds I.gr G ∧ G.sat = I.gr.sat
      ∧ Kept I.gr { G with pfdrop := I.gr.pfdrop } ∧ StandsAt G (I.sp.pc + 2) I.sp.mask ∧ (s.shadows = [] → QuietMem s t)
      ∧ ((∀ L ∈ lanes I.sp.mask, 14 ≤ (I.gr.rd64 (a6 a) L).toNat / 2 ^ 60) → G.pfdrop = I.gr.pfdrop ∧ t.misses = s.misses))

/-- R177, R179, R183, R184, R277: a store whose addresses translate and are permitted goes on, its operation outstanding, and changes no register.
Where nothing earlier of its group holds it back and it is no release, its bytes, in ascending lane order, are at once what its die sees at
the addresses stored to, and what the local stores hold; every other byte, and every other die's view, is as before. -/
def Obligations.StoresIssue : Prop :=
  ∀ (m : Bool) (o : BitVec 1) (h : BitVec 2) (c z : BitVec 3) (a : BitVec 6) (v : BitVec 7) (s : State) (I : Iss), Issues s I →
    I.sp.acq = [] → Usable I.gr [(v.toNat, sizeRegs z), (a6 a, 2)] →
    let rs := I.refs s (a6 a) (lanes I.sp.mask) (2 ^ z.toNat) writing
    let cells := storeCells I v (sizeRegs z) rs
    Clear rs → s.stageFull rs = false →
    IssuesOp (.st m o h c z a v) s I (.store (2 ^ z.toNat) (decide (o = 1))) (scopeOf c) [] rs (fun L => I.gr.rdN v.toNat (sizeRegs z) L) fun t =>
      o = 0 → s.shadows = [] → Dirtied s I rs → NothingEarlier s I.gr.uid →
      (∀ r ∈ rs, ∀ k, r.res.space = .loc k → ∀ b ∈ r.res.pas, s.lsHome k I.gr.ctx b = none) →
        (∀ b, OutsideNq s b → t.dieView (dieOf I.c) b = (lastByte (cells none) b).getD (s.dieView (dieOf I.c) b))
        ∧ (∀ d b, OutsideNq s b → d ≠ dieOf I.c → t.dieView d b = s.dieView d b)
        ∧ ∀ k b, k < 96 → SMap.get 0 (t.core k).ls b = (lastByte (cells (some k)) b).getD (SMap.get 0 (s.core k).ls b)

/-- R9, R187, R189, R190: an atomic whose addresses translate and are permitted makes its result registers pending and leaves an operation
outstanding; a reduction leaves nothing pending. Neither changes a register or, where the pages are already dirty and no shadow is rounded, a byte of
memory when it issues. R189: the atomic is ordered where a FENCE of kind .ar stands next to it (that `Iss.ordered` finds the one after it in the
program is the model's choice: log 109). -/
def Obligations.AtomicsIssue : Prop :=
  (∀ op ∈ atomics, ∀ (m : Bool) (c : BitVec 3) (v : BitVec 7) (a : BitVec 6) (d : BitVec 7) (s : State) (I : Iss), Issues s I →
    I.sp.acq = [] → Usable I.gr [(d.toNat, op.2.2.1), (a6 a, 2), (v.toNat, op.2.2.2)] →
    let rs := I.refs s (a6 a) (lanes I.sp.mask) op.2.1.bytes (atomically c)
    Clear rs →
    IssuesOp (op.1 m c v a d) s I (.atomic op.2.1 true (I.ordered s)) (scopeOf c) (registers d op.2.2.1) rs
      (fun L => I.gr.rdN v.toNat op.2.2.2 L) fun t => s.shadows = [] → Dirtied s I rs → QuietMem s t)
  ∧ ∀ op ∈ reductionOps, ∀ (m : Bool) (c : BitVec 3) (v : BitVec 7) (a : BitVec 6) (s : State) (I : Iss), Issues s I →
    I.sp.acq = [] → Usable I.gr [(a6 a, 2), (v.toNat, op.2.2.1)] →
    let rs := I.refs s (a6 a) (lanes I.sp.mask) op.2.1.bytes (atomically c)
    Clear rs → (∀ r ∈ rs, shadowFits op.2.2.2 r) →
    IssuesOp (op.1 m c v a) s I (.atomic op.2.1 false false) (scopeOf c) [] rs
      (fun L => I.gr.rdN v.toNat op.2.2.1 L) fun t => s.shadows = [] → Dirtied s I rs → QuietMem s t

namespace Sys2Proof.Claims

/-- The bytes that a lane's access reads: from a local store, or as the die of the core sees memory. -/
def seen (s : State) (o : Op) (l : LaneAcc) : List Byte :=
  match l.space with
  | .loc c => l.pas.map fun a => s.lsGet c o.ctx a
  | _ => l.pas.map fun a => s.dieView (dieOf o.core) a

/-- R178, R181: the register `j` of a load's result, of the bytes read: little-endian, a short element zero- or sign-extended. -/
def loadWord (bytes : Nat) (sx : Bool) (b : List Byte) (j : Nat) : Word :=
  if bytes < 4 then (if sx = true then (BitVec.ofNat (8 * bytes) (ofBytes b)).signExtend 32 else BitVec.ofNat 32 (ofBytes b))
  else BitVec.ofNat 32 (ofBytes ((b.drop (4 * j)).take 4))

/-- R183, R246, R305: a lane's access can be performed now: nothing earlier of its group touches its bytes, and a local store holds them, or, at
die scope, its die may read their sectors; what is read is correctable. -/
def Readable (s : State) (o : Op) (l : LaneAcc) : Prop :=
  s.heldBack o l = false ∧ ((∃ c, l.space = .loc c ∧ s.locBad c o.ctx l.pas = false)
    ∨ ((l.space = .global ∨ l.space = .stack) ∧ o.scope = .die
        ∧ ∀ a ∈ l.pas, (s.tok (dieOf o.core) (sectorOf a)).canRead = true ∧ sectorOf a ∉ s.badSectors))

/-- An outstanding operation of a group that runs on a core, none of whose accesses has been performed, one for each lane or one in all. -/
def Outstanding (s : State) (o : Op) (c g : Nat) (x : Group) : Prop :=
  s.ops.look o.op = some o ∧ s.findUid o.uid = some (c, g) ∧ (∀ p ∈ s.cores, ∀ q ∈ p.2.groups, q.2.uid = o.uid → p.1 = c ∧ q.1 = g)
    ∧ s.grp c g = some x ∧ (s.core c).halted = false ∧ s.poisoned = [] ∧ s.shadows = [] ∧ s.badSram = []
    ∧ (∀ l ∈ o.lanes, l.val = none) ∧ (o.lanes.map fun l => l.lane).Nodup
    ∧ (o.d.toNat + o.nd ≤ 128 ∧ 0 < o.nd ∧ (o.d.toNat < 96 → o.d.toNat + o.nd ≤ 96))

/-- The group has received the words `f` (lane, register) of an operation, in the lanes that have not exited (R149), whose registers are no longer
pending, and the operation is over. -/
def Received (t : State) (o : Op) (c g : Nat) (x : Group) (f : Nat → Nat → Word) : Prop :=
  t.ops.look o.op = none ∧ ∃ G, t.grp c g = some G ∧ SamePreds x G ∧ G.sat = x.sat
    ∧ (∀ r, r ∈ G.pend ↔ r ∈ x.pend ∧ (r < o.d.toNat ∨ o.d.toNat + o.nd ≤ r)) ∧ Kept x { G with pend := x.pend }
    ∧ (∀ j L, j < o.nd → (o.mask &&& ~~~ x.exited).getLsbD L = true → o.d.toNat < 96 → G.vget (o.d.toNat + j) L = f L j)
    ∧ (∀ j, j < o.nd → 96 ≤ o.d.toNat → o.mask &&& ~~~ x.exited ≠ 0 → G.sget (o.d.toNat + j - 96) = f (lowest o.mask) j)
    ∧ (∀ r L, r < 96 → (o.d.toNat ≤ r ∧ r < o.d.toNat + o.nd → (o.mask &&& ~~~ x.exited).getLsbD L = false) → G.vget r L = x.vget r L)
    ∧ ∀ r, (r + 96 < o.d.toNat ∨ o.d.toNat + o.nd ≤ r + 96) → G.sget r = x.sget r

end Sys2Proof.Claims

/-- R9, R177, R178, R180, R184: RESULT_WRITEBACK of a load that can be performed gives every active lane the bytes of its address (of the one address
that an LDS reads), clears the pending flags of its registers and ends the operation; no byte of memory and no other register changes. -/
def Obligations.LoadResultsArrive : Prop :=
  ∀ (s : State) (o : Op) (c g bytes : Nat) (sx acq : Bool) (x : Group), o.kind = .load bytes sx acq → Outstanding s o c g x →
    (∀ l ∈ o.lanes, Readable s o l ∧ l.pas.length = bytes ∧ 0 < bytes) → (sx = true → bytes ≤ 2 ∨ 4 ≤ bytes) → o.nd = (bytes + 3) / 4 →
    (∃ t, exec (.resultWriteback o.op) s = .next t ∧ SameMem s t
      ∧ ∀ l0 ∈ o.lanes.head?, ∀ f : Nat → LaneAcc,
          (∀ L, (∀ l ∈ o.lanes, l.lane = L → f L = l) ∧ ((∀ l ∈ o.lanes, l.lane ≠ L) → f L = l0)) →
          Received t o c g x fun L j => loadWord bytes sx (seen s o (f L)) j)

namespace Sys2Proof.Claims

/-- R187: the values of a location: what each atomic makes of an old value of 32 bits and its operand. -/
def atomWord : List (AtomOp × (Word → Word → Word)) :=
  [(.addI32, fun x y => x + y), (.minI32, fun x y => if x.toInt ≤ y.toInt then x else y), (.maxI32, fun x y => if x.toInt ≤ y.toInt then y else x),
   (.minN32, fun x y => if x.toNat ≤ y.toNat then x else y), (.maxN32, fun x y => if x.toNat ≤ y.toNat then y else x),
   (.and, fun x y => x &&& y), (.or, fun x y => x ||| y), (.xor, fun x y => x ^^^ y), (.xchg, fun _ y => y), (.faddF32, faddW)]

/-- R187, R190: what an operation makes of an old value (of 4 or 8 bytes) and its operand registers. -/
def Makes (a : AtomOp) (old : Nat) (arg : List Word) (new : Nat) : Prop :=
  (∀ p ∈ atomWord, p.1 = a → new = (p.2 (BitVec.ofNat 32 old) (arg.getD 0 0)).toNat)
    ∧ (a = .cas → new = if old % 2 ^ 32 = (arg.getD 0 0).toNat then (arg.getD 1 0).toNat else old)
    ∧ (a = .addI64 → new = (old + ((arg.getD 1 0) ++ (arg.getD 0 0)).toNat) % 2 ^ 64)
    ∧ (a = .casI64 → new = if old = ((arg.getD 1 0) ++ (arg.getD 0 0)).toNat then ((arg.getD 3 0) ++ (arg.getD 2 0)).toNat else old)

end Sys2Proof.Claims

/-- R9, R187, R190: an atomic on a local store, performed for one lane: RESULT_WRITEBACK returns the old value, and the location holds what the
operation makes of it and the operand; a reduction, performed by WRITE_ACKNOWLEDGED, changes the location alike and returns nothing. No
other byte changes. -/
def Obligations.LocalAtomicsPerform : Prop :=
  ∀ (s : State) (o : Op) (c g k off : Nat) (a : AtomOp) (returns : Bool) (x : Group) (l : LaneAcc), o.kind = .atomic a returns false →
    a ≠ .faddBf16x2 → a ≠ .faddFp8 → Outstanding s o c g x → o.lanes = [l] → l.space = .loc k → l.pas = fromN off a.bytes →
    o.nd = a.bytes / 4 → s.heldBack o l = false → o.scope = .workgroup → (∀ b ∈ l.pas, s.lsHome k o.ctx b = none) →
    let old := ofBytes (l.pas.map fun b => SMap.get 0 (s.core k).ls b)
    ∃ t new, exec (if returns then .resultWriteback o.op else .writeAcknowledged o.op) s = .next t ∧ Makes a old l.arg new
      ∧ (∀ d b, t.dieView d b = s.dieView d b)
      ∧ (∀ b, SMap.get 0 (t.core k).ls b = if off ≤ b ∧ b < off + a.bytes then BitVec.ofNat 8 (new / 256 ^ (b - off)) else SMap.get 0 (s.core k).ls b)
      ∧ (∀ c' b, c' ≠ k → SMap.get 0 (t.core c').ls b = SMap.get 0 (s.core c').ls b)
      ∧ (returns = true → Received t o c g x fun _ j => BitVec.ofNat 32 (old / 2 ^ (32 * j)))
      ∧ (returns = false → t.ops.look o.op = none ∧ ∃ G, t.grp c g = some G ∧ SameRegs x G ∧ SamePreds x G ∧ Kept x G)

/-! ### Translation, barriers, elastic groups, queues -/

namespace Sys2Proof.Claims

/-- An instruction that changes more than its group ends: the group stands at the next instruction, and state and group are as a test says. -/
def Goes (i : Instr) (s : State) (I : Iss) (P : State → Group → Prop) : Prop :=
  ∃ t G, exec i s = .next t ∧ t.grp I.c I.g = some G ∧ SamePreds I.gr G ∧ G.sat = I.gr.sat ∧ StandsAt G (I.sp.pc + 2) I.sp.mask ∧ P t G

/-- A split of the group stands at a PC with at least the lanes of a mask and waits. -/
def WaitsIn (G : Group) (pc : Pc) (mask : Mask) (w : Wait) : Prop :=
  ∃ x, (x ∈ SMap.vals G.slots ∨ x ∈ G.spill) ∧ x.pc = pc ∧ mask &&& ~~~ x.mask = 0 ∧ x.wait = w

/-- The instruction leaves its split waiting, its PC where it is. -/
def Holds (i : Instr) (s : State) (I : Iss) (w : Wait) (P : State → Group → Prop) : Prop :=
  ∃ t G, exec i s = .next t ∧ t.grp I.c I.g = some G ∧ SameRegs I.gr G ∧ SamePreds I.gr G ∧ G.sat = I.gr.sat ∧ Kept I.gr G
    ∧ WaitsIn G I.sp.pc I.sp.mask w ∧ P t G

/-- The instruction traps its split before it does anything. -/
def Traps (i : Instr) (s : State) (I : Iss) (cause : BitVec 8) : Prop :=
  ∃ t, exec i s = .next t ∧ Trapped t I cause I.sp.mask I.sp.pc false

/-- No lookaside buffer of a core or die holds an entry that a test accepts. -/
def NoTlb (t : State) (f : TlbEntry → Bool) : Prop :=
  (∀ c, ∀ e ∈ (t.core c).tlb, f e = false) ∧ ∀ d, ∀ e ∈ (t.die d).tlb, f e = false

end Sys2Proof.Claims

/-- R161, R162: in supervisor mode MAPPG hands the lanes' addresses and attributes to the walker and waits in its split; TLBINV removes the page's, or
the context's, entries from the lookaside buffer of every core and every die and waits until what went through them is performed. In user mode
they take cause 0x05. (The model's choice: the entries are out of every lookaside buffer when TLBINV has issued, log 39.) -/
def Obligations.TranslationInstructions : Prop :=
  ∀ (m : Bool) (b : BitVec 7) (a : BitVec 6) (d : BitVec 7) (s : State) (I : Iss), Issues s I →
    (Usable I.gr [(d.toNat, 1), (a6 a, 2), (b.toNat, 1)] →
      (I.gr.sup = true → Holds (.mappg m b a d) s I (.mappg s.serial) fun t _ => SameMem s t ∧ ∃ o, t.ops.look s.serial = some o
          ∧ o.kind = .mappg [] ∧ o.d = d ∧ o.mask = I.sp.mask ∧ o.uid = I.gr.uid
          ∧ o.lanes.map (fun l => (l.lane, l.va, l.arg)) = (lanes I.sp.mask).map fun L => (L, I.gr.rd64 (a6 a) L, [I.gr.rd b.toNat L]))
      ∧ (I.gr.sup = false → Traps (.mappg m b a d) s I 0x05))
    ∧ (Usable I.gr [(a6 a, 2)] →
      (I.gr.sup = true → Holds (.tlbinvPage m a) s I (.tlbinv s.serial) fun t _ => SameMem s t
          ∧ NoTlb t fun e => e.covers I.gr.ctx ((I.gr.rd64 (a6 a) (lowest I.sp.mask)).toNat % 2 ^ 52 / 65536))
      ∧ (I.gr.sup = false → Traps (.tlbinvPage m a) s I 0x05))
    ∧ (I.gr.sup = true → Holds (.tlbinvCtx m) s I (.tlbinv s.serial) fun t _ => SameMem s t ∧ NoTlb t fun e => decide (e.ctx = I.gr.ctx))
    ∧ (I.gr.sup = false → Traps (.tlbinvCtx m) s I 0x05)

namespace Sys2Proof.Claims

/-- R35: the fields of a barrier word. -/
def expected (x : Dword) : Nat := (x.extractLsb' 0 16).toNat
def awaited (x : Dword) : Nat := (x.extractLsb' 16 16).toNat
def phaseOf (x : Dword) : BitVec 16 := x.extractLsb' 32 16

/-- Barrier word `n` of a workgroup of a core, and its core offset. -/
def barOff (w : Workgroup) (n : Nat) : Nat := w.base + 8 * n
def barIn (s : State) (c : Nat) (w : Workgroup) (n : Nat) : Dword := (s.core c).bar (barOff w n)

end Sys2Proof.Claims

/-- R191 to R193: BAR.ARV and BAR.ARVDROP send an arrival to the bank (the latter drops one participant) and give the word's phase; BAR.WAIT goes on
where the phase differs from a, and otherwise waits; BAR.SYNC sends an arrival and waits for the next phase; BINIT writes a word that nobody has
begun to arrive at, with its phase kept. A word that is not the workgroup's takes 0x80, an arrival at an uninitialised word 0x81, a drop of
the last participant 0x82, a BINIT of a running phase 0x83. BAR.ARV of a sequencer does the same with its own registers. (The model's choice: 0x82 is judged by the word as it stands at
the issue, drops on their way not counted, log 88.) -/
def Obligations.BarrierInstructions : Prop :=
  (∀ (m : Bool) (i d : BitVec 7) (s : State) (I : Iss) (w : Workgroup), Issues s I → s.wgOf I.c I.gr.wg = some w →
    let x := barIn s I.c w i.toNat
    let off := barOff w i.toNat
    let arr (drops : Nat) : Arrival := ⟨off, 1, drops, 0, I.gr.uid, I.gr.ctx, s.serial⟩
    let Arrives (j : Instr) (drops : Nat) : Prop := Goes j s I fun t G => Writes I.gr G I.sp.mask d.toNat (fun _ => (phaseOf x).setWidth 32)
      ∧ Kept I.gr G ∧ SameMem s t ∧ (t.core I.c).arrivals = (s.core I.c).arrivals ++ [arr drops]
    (Usable I.gr [(d.toNat, 1)] →
      (i.toNat < w.bars → expected x ≠ 0 → Arrives (.barArv m i d) 0)
      ∧ (i.toNat < w.bars → 1 < expected x → Arrives (.barArvdrop m i d) 1)
      ∧ (i.toNat < w.bars → phaseOf x ≠ (I.gr.rd d.toNat (lowest I.sp.mask)).setWidth 16 →
          Runs (.barWait m i d) s I fun G => SameRegs I.gr G ∧ SamePreds I.gr G ∧ G.sat = I.gr.sat ∧ StandsAt G (I.sp.pc + 2) I.sp.mask)
      ∧ (i.toNat < w.bars → phaseOf x = (I.gr.rd d.toNat (lowest I.sp.mask)).setWidth 16 →
          Holds (.barWait m i d) s I (.phase off (phaseOf x)) fun t _ => SameMem s t)
      ∧ (i.toNat < w.bars → awaited x = expected x → Goes (.binit m i d) s I fun t G => SameRegs I.gr G ∧ Kept I.gr G
          ∧ (∀ b k, t.dieView b k = s.dieView b k)
          ∧ (∀ c k, c ≠ I.c ∨ k < off ∨ off + 8 ≤ k → SMap.get 0 (t.core c).ls k = SMap.get 0 (s.core c).ls k)
          ∧ (let y := barIn t I.c w i.toNat
             let v := I.gr.rd d.toNat (lowest I.sp.mask)
             expected y = v.toNat % 2 ^ 16 ∧ awaited y = v.toNat % 2 ^ 16 ∧ phaseOf y = phaseOf x ∧ y.getLsbD 48 = v.getLsbD 16))
      ∧ (I.gr.sup = false →
          (w.bars ≤ i.toNat → ∀ j ∈ [Instr.barArv m i d, .barArvdrop m i d, .barWait m i d, .barSync m i, .binit m i d], Traps j s I 0x80)
          ∧ (i.toNat < w.bars → expected x = 0 → ∀ j ∈ [Instr.barArv m i d, .barArvdrop m i d, .barSync m i], Traps j s I 0x81)
          ∧ (i.toNat < w.bars → expected x = 1 → Traps (.barArvdrop m i d) s I 0x82)
          ∧ (i.toNat < w.bars → awaited x ≠ expected x → Traps (.binit m i d) s I 0x83)))
    ∧ (i.toNat < w.bars → expected x ≠ 0 → Holds (.barSync m i) s I (.phase off (phaseOf x)) fun t _ =>
        SameMem s t ∧ (t.core I.c).arrivals = (s.core I.c).arrivals ++ [arr 0]))
  ∧ ∀ (i d : BitVec 7) (s : State) (c : Nat) (cp : Bool) (q : Sequencer) (w : Workgroup), s.cur = some (.seq c cp) → q = (s.core c).seqOf cp →
      s.wgOf c q.wg = some w → 96 ≤ d.toNat → d.toNat < 112 → i.toNat < w.bars → expected (barIn s c w i.toNat) ≠ 0 →
      ∃ t a, exec (.barArv false i d) s = .next t ∧ SameMem s t ∧ (t.core c).arrivals = (s.core c).arrivals ++ [a]
        ∧ a.offset = barOff w i.toNat ∧ a.arrivals = 1 ∧ a.drops = 0
        ∧ ((t.core c).seqOf cp).rd d.toNat = (phaseOf (barIn s c w i.toNat)).setWidth 32 ∧ ((t.core c).seqOf cp).pc = q.pc + 2

namespace Sys2Proof.Claims

/-- R198, R199, R351: the state in which a queue instruction checks its queue, and that in which it acts, once its descriptor's page and its state array's
pages are marked as written; and the descriptor's physical address. -/
def queueRef (s : State) (I : Iss) (a : BitVec 6) : Ref :=
  let va := (I.gr.rd64 (a6 a) (lowest I.sp.mask)).toNat
  Ref.mk (lowest I.sp.mask) va (s.resolve I.c I.gr (lowest I.sp.mask) va 1 queueWant)
def queuePa (s : State) (I : Iss) (a : BitVec 6) : Nat := (queueRef s I a).res.pas.headD 0
def queueBase (s : State) (I : Iss) (a : BitVec 6) : State :=
  (s.dropFaults I.c I.gr.ctx [queueRef s I a]).useTlbs I.c I.gr.ctx [queueRef s I a]
def queueState (s : State) (I : Iss) (a : BitVec 6) : State :=
  let d := (queueBase s I a).qdesc (queuePa s I a)
  ((queueBase s I a).dirtyPages I.c I.gr.ctx [queueRef s I a]).touchRange d.ctx d.states (8 * d.count) queueWant

/-- R198: the descriptor is the context's, valid and aligned, and it and its state array can be reached. -/
def QueueFits (s : State) (I : Iss) (a : BitVec 6) : Prop :=
  Clear [queueRef s I a] ∧ (queueRef s I a).va / 2 ^ 60 = 0 ∧ (queueRef s I a).va % 64 = 0 ∧ (s.qdesc (queuePa s I a)).valid = true
    ∧ (s.qdesc (queuePa s I a)).ctx = I.gr.ctx
    ∧ s.badSectors = [] ∧ s.badSram = [] ∧ s.poisoned = [] ∧ s.shadows = []
    ∧ (queueBase s I a).rangeKinds (s.qdesc (queuePa s I a)).ctx
        (s.qdesc (queuePa s I a)).states (8 * (s.qdesc (queuePa s I a)).count) queueWant = []

/-- A queue operation is outstanding. -/
def QueueOp (t : State) (n : Nat) (I : Iss) (kind : OpKind) : Prop :=
  ∃ o, t.ops.look n = some o ∧ o.kind = kind ∧ o.uid = I.gr.uid ∧ o.mask = I.sp.mask

end Sys2Proof.Claims

/-- R195 to R197, R199, R202: each of these instructions completes. ATTACH writes the number n of groups that it starts; where n is not 0, n slots
that held no group hold new ones with all lanes at the entry offset, and each elastic barrier word expects n arrivals more. DETACH parks its group past
itself. TRIGGER marks its lanes triggered. QPUSH with nobody waiting and a free slot has the slot's address as its result, which is pending, and
memory as the reservation leaves it; with a group waiting, or no free slot, its group is parked as the last of those that wait. QPOP leaves its result
pending and QFREE nothing, with their operations outstanding. PUBLISH waits in its split for the port agent. In user mode, 0x84 is taken where the
workgroup is not elastic, 0x85 at its least size, 0x86 with results pending, and 0x8C outside every window. (The model's choice: QPUSH
reserves its slot in the step in which it issues, log 37.) -/
def Obligations.ElasticAndQueueInstructions : Prop :=
  ∀ (m : Bool) (s : State) (I : Iss), Issues s I →
    (∀ (a d : BitVec 7) (w : Workgroup), Usable I.gr [(d.toNat, 1), (a.toNat, 1)] → s.wgOf I.c I.gr.wg = some w →
      let n := min ((I.gr.rd a.toNat (lowest I.sp.mask)).toNat % 64) (s.attachFree I.c I.gr.wg)
      (w.emin < w.emax → n = 0 → Runs (.attach m a d) s I fun G => Writes I.gr G I.sp.mask d.toNat (fun _ => 0) ∧ SamePreds I.gr G ∧ G.sat = I.gr.sat)
      ∧ (w.emin < w.emax → 0 < n → ∃ t G, exec (.attach m a d) s = .next t ∧ t.grp I.c I.g = some G ∧ SamePreds I.gr G ∧ G.sat = I.gr.sat
          ∧ Kept I.gr G ∧ Writes I.gr G I.sp.mask d.toNat (fun _ => BitVec.ofNat 32 n) ∧ StandsAt G (I.sp.pc + 2) I.sp.mask
          ∧ (∃ ks : List Nat, ks.Nodup ∧ ks.length = n ∧ ∀ k ∈ ks, s.grp I.c k = none ∧ ∃ x, t.grp I.c k = some x ∧ x.wg = I.gr.wg ∧ x.ctx = w.ctx
              ∧ x.nregs = w.nregs ∧ x.slots = [(0, { pc := BitVec.ofNat 17 (w.rbase + w.aentry), mask := BitVec.allOnes 32 })])
          ∧ ∀ i, i < w.bars → barIn t I.c w i =
              (if barElastic (barIn s I.c w i) then barUpdate (barIn s I.c w i) 0 0 n else barIn s I.c w i))
      ∧ (I.gr.sup = false → w.emax ≤ w.emin → Traps (.attach m a d) s I 0x84))
    ∧ (∀ w, s.wgOf I.c I.gr.wg = some w →
      (w.emin < s.wgSize I.c I.gr.wg → I.gr.pend = [] → Runs (.detach m) s I fun G => SameRegs I.gr G ∧ SamePreds I.gr G ∧ G.sat = I.gr.sat
        ∧ G.park = .detach ∧ StandsAt G (I.sp.pc + 2) I.sp.mask)
      ∧ (I.gr.sup = false → s.wgSize I.c I.gr.wg ≤ w.emin → Traps (.detach m) s I 0x85)
      ∧ (I.gr.sup = false → w.emin < s.wgSize I.c I.gr.wg → I.gr.pend ≠ [] → Traps (.detach m) s I 0x86))
    ∧ (∃ G t, exec (.trigger m) s = .next t ∧ t = s.setGrp I.c I.g G ∧ SameMem s t ∧ SameRegs I.gr G ∧ SamePreds I.gr G ∧ G.sat = I.gr.sat
        ∧ G.triggered = I.gr.triggered ||| I.sp.mask ∧ Kept I.gr { G with triggered := I.gr.triggered } ∧ StandsAt G (I.sp.pc + 2) I.sp.mask)
    ∧ (I.sp.acq = [] → ∀ a : BitVec 6, Usable I.gr [(a6 a, 2)] →
      (QueueFits s I a →
        let q := queueState s I a
        let pa := queuePa s I a
        let b := queueBase s I a
        (∀ d : BitVec 7, Usable I.gr [(d.toNat, 2)] → Goes (.qpush m a d) s I fun t G => SameRegs I.gr G
            ∧ Kept I.gr { G with pend := I.gr.pend, pfdrop := I.gr.pfdrop } ∧ (∀ r, r ∈ G.pend ↔ r ∈ I.gr.pend ∨ r = d.toNat ∨ r = d.toNat + 1)
            ∧ (∃ n, QueueOp t n I (.qpush pa))
            ∧ (∀ va q1, (SMap.get ({} : Queue) q.queues pa).pushers = [] → q.pushSlot pa I.gr.ident = some (va, q1) →
                QueueOp t q1.serial I (.qpush pa) ∧ (∃ o, t.ops.look q1.serial = some o ∧ o.lanes.map (fun l => l.val) = [some [BitVec.ofNat 32 va, BitVec.ofNat 32 (va / 2 ^ 32)]])
                ∧ ∀ b k, t.dieView b k = q1.dieView b k)
            ∧ ((SMap.get ({} : Queue) q.queues pa).pushers ≠ [] ∨ (q.qdesc pa).free = 0 ∨ q.freeSlotOf (q.qdesc pa) = none → G.park = .qpush q.serial pa
              ∧ (SMap.get ({} : Queue) t.queues pa).pushers = (SMap.get ({} : Queue) q.queues pa).pushers ++ [(I.gr.uid, q.serial)]))
        ∧ (∀ d : BitVec 7, Usable I.gr [(d.toNat, 1)] → b.queueOps [I.gr.uid] (.qpop pa) < (b.slotsHeld (b.qdesc pa) 1 I.gr.ident).length →
            Goes (.qpop m a d) s I fun t G => SameRegs I.gr G ∧ Kept I.gr { G with pend := I.gr.pend, pfdrop := I.gr.pfdrop }
              ∧ (∀ r, r ∈ G.pend ↔ r ∈ I.gr.pend ∨ r = d.toNat) ∧ QueueOp t q.serial I (.qpop pa))
        ∧ (∀ w, b.wgOf I.c I.gr.wg = some w →
            b.queueOps (((b.core I.c).groupsOf I.gr.wg).map fun p => p.2.uid) (.qfree pa) < (b.slotsHeld (b.qdesc pa) 3 w.ident).length →
            Goes (.qfree m a) s I fun t G => SameRegs I.gr G ∧ Kept I.gr { G with pfdrop := I.gr.pfdrop } ∧ QueueOp t q.serial I (.qfree pa)))
      ∧ (∀ w, s.windowAt I.gr.ctx (I.gr.rd64 (a6 a) (lowest I.sp.mask)).toNat = some w →
          Holds (.publish m a) s I (.publish w) fun t _ => SameMem s t)
      ∧ (I.gr.sup = false → s.windowAt I.gr.ctx (I.gr.rd64 (a6 a) (lowest I.sp.mask)).toNat = none → Traps (.publish m a) s I 0x8C))

/-! ### Engines -/

namespace Sys2Proof.Claims

/-- R27, R253: an engine instruction is executed for a split, or for a sequencer. -/
def EngIssues (s : State) (E : Eng) : Prop :=
  match E with
  | .grp I => Issues s I ∧ I.sp.acq = []
  | .seq c cp q => s.cur = some (.seq c cp) ∧ q = (s.core c).seqOf cp

/-- R10, R89: its register operands can be used; a sequencer has s0 to s15 and no marker. -/
def EngUsable (E : Eng) (m : Bool) (ops : List (Nat × Nat)) : Prop :=
  match E with
  | .grp I => Usable I.gr ops
  | .seq _ _ _ => m = false ∧ ∀ o ∈ ops, o.1 % o.2 = 0 ∧ 96 ≤ o.1 ∧ o.1 + o.2 ≤ 112

/-- The instruction is over, with no result in its registers; `new` registers of a group are now pending. -/
def EngEnds (t : State) (E : Eng) (new : List Nat) : Prop :=
  match E with
  | .grp I => ∃ G, t.grp I.c I.g = some G ∧ SameRegs I.gr G ∧ SamePreds I.gr G ∧ G.sat = I.gr.sat ∧ StandsAt G (I.sp.pc + 2) I.sp.mask
      ∧ Kept I.gr { G with pend := I.gr.pend } ∧ ∀ r, r ∈ G.pend ↔ r ∈ I.gr.pend ∨ r ∈ new
  | .seq c cp q => ((t.core c).seqOf cp).pc = q.pc + 2 ∧ ((t.core c).seqOf cp).run = q.run ∧ ((t.core c).seqOf cp).sregs = q.sregs
      ∧ ((t.core c).seqOf cp).owner = q.owner ∧ ((t.core c).seqOf cp).cause = q.cause

/-- R204: the matrix queue accepts an operation of the issuer: it is the last of the queue, the tiles that it reads or writes are held, and
the issuer goes on. -/
def Accepts (i : Instr) (s : State) (E : Eng) (kind : MatrixKind) (reads writes : List Nat) : Prop :=
  ∃ t, exec i s = .next t ∧ EngEnds t E [] ∧ SameMem s t
    ∧ (t.core E.core).mqueue = (s.core E.core).mqueue ++ [⟨s.serial, E.src, E.ctx, E.wg, E.rows, E.sup, kind⟩]
    ∧ ∀ e, ((t.core E.core).tile e).reads = ((s.core E.core).tile e).reads ++ (if e ∈ reads then [s.serial] else [])
        ∧ ((t.core E.core).tile e).writes = ((s.core E.core).tile e).writes ++ (if e ∈ writes then [s.serial] else [])
        ∧ ((t.core E.core).tile e).state = ((s.core E.core).tile e).state

/-- R220, R223, R286: an MLDB reads its stream as it is accepted: the bytes, or the cause and address that its read met, stand with its operation in the
queue; a stream of the local store, with a good header and nothing of its group outstanding, is read as the store holds it. Poisoned data stops
the context, and an atomic of the group that stands before a byte lets the acceptance wait. -/
def LoadsStream (m : Bool) (n : BitVec 3) (a : BitVec 6) (s : State) (E : Eng) : Prop :=
  let va := (E.rd64 (a6 a)).toNat
  let r := s.loadStream E.core E.ctx E.wg E.src va
  let Enters (u : State) (x : Stream) : Prop := ∃ t, exec (.mldb m n a) s = .next t ∧ EngEnds t E [] ∧ SameMem u t
    ∧ (t.core E.core).mqueue = (u.core E.core).mqueue ++ [⟨u.serial, E.src, E.ctx, E.wg, E.rows, E.sup, .mldb n.toNat (E.rd64 (a6 a))⟩]
    ∧ (t.core E.core).streams.look u.serial = some x
  (∀ bytes, r.1 = .ok bytes → Enters r.2 { bytes := bytes, need := r.2.streamNeeds E.core E.ctx E.wg va bytes.length })
    ∧ (∀ k b, r.1 = .fail k b → Enters r.2 { fail := some (k, b) })
    ∧ (r.1 = .poison → ∃ t, exec (.mldb m n a) s = .next t ∧ ∀ w x, r.2.wgOf E.core w = some x → x.ctx = E.ctx → t.wgOf E.core w = none)
    ∧ (∀ I, E = .grp I → r.1 = .held → Holds (.mldb m n a) s I .matrixQueue fun t _ => SameMem s t)
    ∧ ∀ off x, va / 2 ^ 60 = 15 → va % 16 = 0 → s.ops = [] → s.badSram = [] →
        s.resolveLocal E.core E.wg va 1 = { kinds := [], pas := [off], space := .loc E.core } →
        x = ofBytes ((fromN off 16).map fun b => SMap.get 0 (s.core E.core).ls b) → headerBad x = false →
        (∀ b ∈ fromN off (16 + 32 * (presentUnits x).length), s.lsHome E.core E.ctx b = none) →
        (s.resolveLocal E.core E.wg (va + 15) 1).kinds = [] → (s.resolveLocal E.core E.wg (va + 16 + 32 * (presentUnits x).length - 1) 1).kinds = [] →
        Enters s { bytes := (fromN off (16 + 32 * (presentUnits x).length)).map fun b => SMap.get 0 (s.core E.core).ls b }

/-- R226: the words of a row of a column quarter, in a format: the eight elements, rounded, least significant first. -/
def quarterBytes (F : Fmt) (sat : Bool) (a : Acc) (q L : Nat) : List Byte :=
  (List.range 8).flatMap fun e => toBytes (F.bits / 8) (F.rne sat (fw (SMap.get 0 a.elems (32 * L + (8 * q + e)))))

end Sys2Proof.Claims

/-- R34, R204, R206, R208, R214, R216 to R220, R224 to R227: with room in the matrix queue and nobody waiting for it, each matrix instruction whose
operands are in order enters the queue with its operands, for a group with its active lanes as rows, for a sequencer with all rows; an operand
tile must be READY with the format; MLDB reads its stream as it enters (`LoadsStream`; that it waits behind an atomic of its group is the model's choice,
log 81). ACC2V writes its registers at once where nothing is queued, and otherwise waits; MPERM waits for its table. -/
def Obligations.MatrixInstructions : Prop :=
  ∀ (m : Bool) (s : State) (E : Eng) (w : Workgroup), EngIssues s E → EngUsable E m [] → E.wgOf s = some w →
    ((s.core E.core).mqueue.length < 16 → s.queueWaiters E.core true .matrixQueue = [] →
      (∀ (c : BitVec 4) (a : Nat), w.accs[c.toNat]? = some a →
        (∀ (p z : BitVec 1) (f : BitVec 4) (n : BitVec 3) (t : BitVec 6) (e : Nat) (x : MmaFmt), w.tiles[t.toNat]? = some e → mmaFmt f.toNat = some x →
          ((s.core E.core).tile e).valid = true → ((s.core E.core).tile e).state = .ready →
          ((s.core E.core).tile e).fmt.toNat = x.fmt → ((s.core E.core).tile e).geom.toNat = x.geom →
          x.bytes ≤ 256 * ((s.core E.core).tile e).size.toNat → (p = 1 → x.geom ≠ 0 ∧ ((s.core E.core).tile e).perm = false) →
          Accepts (.mma m p z f n t c) s E (.mma a e n.toNat f (decide (z = 1)) (decide (p = 1))) [e] [])
        ∧ (∀ (f : BitVec 4) (u : BitVec 1) (x : BitVec 7) (e : Nat) (F : Fmt), w.tiles[x.toNat]? = some e → maccFmt f = some F →
          ((s.core E.core).tile e).valid = true → ((s.core E.core).tile e).state = .ready → ((s.core E.core).tile e).fmt = f →
          ((s.core E.core).tile e).geom = 0 → 1024 * (F.bits / 8) ≤ 256 * ((s.core E.core).tile e).size.toNat →
          Accepts (.acc2t m f u x c) s E (.acc2t e a f (decide (u = 1))) [] [e] ∧ Accepts (.t2acc m f x c) s E (.t2acc e a f) [e] [])
        ∧ Accepts (.mzero m c) s E (.mzero a) [] []
        ∧ (∀ v : BitVec 7, EngUsable E m [(v.toNat, 1)] → Accepts (.mbandA m c v) s E (.mbandA a ((E.rd v.toNat).setWidth 16)) [] []))
      ∧ (∀ (i : BitVec 4) (v : BitVec 7), i.toNat < 8 → EngUsable E m [(v.toNat, 1)] →
          Accepts (.mbandW m i v) s E (.mbandW i.toNat ((E.rd v.toNat).setWidth 16)) [] [])
      ∧ (∀ (n : BitVec 3) (a : BitVec 6), EngUsable E m [(a6 a, 2)] → LoadsStream m n a s E))
    ∧ ∀ I, E = .grp I →
      (∀ (f : BitVec 4) (u : BitVec 1) (k : BitVec 2) (x : BitVec 7) (c : BitVec 4) (a : Nat) (F : Fmt), w.accs[c.toNat]? = some a → maccFmt f = some F →
        x.toNat < 96 → x.toNat % maccRegs f.toNat = 0 → Usable I.gr ((fromN x.toNat (maccRegs f.toNat)).map fun r => (r, 1)) →
        ((s.core I.c).mqueue = [] → Runs (.acc2v m f u k x c) s I fun G => SamePreds I.gr G ∧ G.sat = I.gr.sat
          ∧ (∀ j L, j < maccRegs f.toNat → I.sp.mask.getLsbD L = true → G.vget (x.toNat + j) L = BitVec.ofNat 32
              (ofBytes (((quarterBytes F (decide (u = 1)) (SMap.get {} (s.core I.c).accs a) k.toNat L).drop (4 * j)).take 4)))
          ∧ (∀ r L, r < x.toNat ∨ x.toNat + maccRegs f.toNat ≤ r ∨ I.sp.mask.getLsbD L = false → G.vget r L = I.gr.vget r L)
          ∧ ∀ r, G.sget r = I.gr.sget r)
        ∧ ((s.core I.c).mqueue ≠ [] → Holds (.acc2v m f u k x c) s I (.acc2v s.serial f u k x a) fun t _ => SameMem s t)
        ∧ ((s.core I.c).mqueue.length < 16 → s.queueWaiters I.c true .matrixQueue = [] →
            ∃ rows, Accepts (.v2acc m f k x c) s E (.v2acc a k.toNat rows) [] [] ∧ rows.map Prod.fst = lanes I.sp.mask
              ∧ ∀ p ∈ rows, p.2 = (List.range 8).map fun e => wf32 (F.decode (ofBytes
                  ((((I.gr.rdN x.toNat (maccRegs f.toNat) p.1).flatMap fun y => toBytes 4 y.toNat).drop (F.bits / 8 * e)).take (F.bits / 8))))))
      ∧ ∀ a : BitVec 6, Usable I.gr [(a6 a, 2)] →
          Clear [Ref.mk (lowest I.sp.mask) (I.gr.rd64 (a6 a) (lowest I.sp.mask)).toNat
            (s.resolve I.c I.gr (lowest I.sp.mask) (I.gr.rd64 (a6 a) (lowest I.sp.mask)).toNat 128 reading)] →
          ∃ t G, exec (.mperm m a) s = .next t ∧ t.grp I.c I.g = some G ∧ SameRegs I.gr G ∧ SamePreds I.gr G ∧ Kept I.gr { G with pfdrop := I.gr.pfdrop }
            ∧ WaitsIn G I.sp.pc I.sp.mask (.mperm s.serial) ∧ ∃ o, t.ops.look s.serial = some o ∧ o.kind = .mperm

/-- R32, R33, R229 to R233: TSETUP makes an entry of the workgroup's allocation valid, with the fields of its descriptor, EMPTY or READY; TDRAIN of a
READY tile makes it EMPTY, or DRAINING while accepted operations read it; TSTATE gives the entry; TFREE of a tile without fills, reads or writes frees
it, and otherwise, or behind another TFREE of it, waits. Only that entry changes. A tile beyond the allocation takes 0x04, an invalid one 0x88, TDRAIN of one that is not
READY 0x89. -/
def Obligations.TileInstructions : Prop :=
  ∀ (m : Bool) (s : State) (E : Eng) (w : Workgroup) (t : BitVec 6) (e : Nat), EngIssues s E → EngUsable E m [] → E.wgOf s = some w →
    w.tiles[t.toNat]? = some e →
    let x := (s.core E.core).tile e
    let Sets (i : Instr) (y : Tile) : Prop := ∃ u, exec i s = .next u ∧ EngEnds u E [] ∧ SameMem s u ∧ (u.core E.core).tile e = y
      ∧ ∀ n, n ≠ e → (u.core E.core).tile n = (s.core E.core).tile n
    (∀ a : BitVec 6, EngUsable E m [(a6 a, 2)] →
      let v := E.rd64 (a6 a)
      setupCause v x.valid w = none → Sets (.tsetup m t a)
        { state := if v.getLsbD 40 then .ready else .empty, valid := true, fmt := v.extractLsb' 32 4, perm := v.getLsbD 39, geom := v.extractLsb' 36 3,
          base := v.extractLsb' 0 13, size := v.extractLsb' 16 14, wg := E.wg })
    ∧ (x.valid = true → x.state = .ready → x.reads ≠ [] → Sets (.tdrain m t) { x with state := .draining })
    ∧ (x.valid = true → x.state = .ready → x.reads = [] → Sets (.tdrain m t) { x with state := .empty })
    ∧ (x.valid = true → x.fills = 0 → x.reads = [] → x.writes = [] → (s.core E.core).tfreeWaits e = false → Sets (.tfree m t) { wg := x.wg })
    ∧ (∀ I, E = .grp I →
        (∀ d : BitVec 7, x.valid = true → Usable I.gr [(d.toNat, 2)] → Runs (.tstate m t d) s I fun G =>
          Writes2 I.gr G I.sp.mask d.toNat (fun _ => x.word) ∧ SamePreds I.gr G ∧ G.sat = I.gr.sat)
        ∧ (x.valid = true → x.fills ≠ 0 ∨ x.reads ≠ [] ∨ x.writes ≠ [] ∨ (s.core E.core).tfreeWaits e = true → Holds (.tfree m t) s I (.tfree e) fun u _ => SameMem s u)
        ∧ (I.gr.sup = false → x.valid = false → ∀ j ∈ [Instr.tfree m t, .tdrain m t], Traps j s I 0x88)
        ∧ (I.gr.sup = false → x.valid = true → x.state ≠ .ready → Traps (.tdrain m t) s I 0x89)
        ∧ ∀ n : BitVec 6, I.gr.sup = false → w.tiles.length ≤ n.toNat → ∀ j ∈ [Instr.tfree m n, .tdrain m n], Traps j s I 0x04)
    ∧ ∀ c cp q, E = .seq c cp q → ∀ d : BitVec 7, x.valid = true → EngUsable E m [(d.toNat, 2)] →
        ∃ Q, exec (.tstate m t d) s = .next (s.setSeq c cp Q) ∧ Q.pc = q.pc + 2 ∧ Q.rd64 d.toNat = x.word

namespace Sys2Proof.Claims

/-- R243, R249: a copy of the issuer is the last of its queue, it counts among the issuer's copies, and its status, if it has one, is pending. -/
def Queues (i : Instr) (s : State) (E : Eng) (store lane : Bool) (new : List Nat) (P : State → CopyOp → Prop) : Prop :=
  ∃ t o, exec i s = .next t ∧ EngEnds t E new
    ∧ (t.core E.core).copyCount store = (s.core E.core).copyCount store + 1
    ∧ o ∈ (if store then (t.core E.core).storeQ else (t.core E.core).loadQ) ∧ o.op = s.serial ∧ o.src = E.src ∧ o.ctx = E.ctx ∧ o.wg = E.wg
    ∧ o.mask = E.rows ∧ o.store = store ∧ o.lane = lane ∧ P t o

/-- R183, R225: nothing of a group for which the acceptance of its copies would wait is outstanding: no operation, and none of a matrix engine. -/
def NoneOutstanding (s : State) (E : Eng) : Prop :=
  ∀ I, E = .grp I → (∀ p ∈ s.ops, p.2.uid ≠ I.gr.uid) ∧ (∀ p ∈ s.cores, ∀ y ∈ p.2.mqueue, y.src ≠ .grp I.gr.uid)
    ∧ ∀ im ∈ s.images, ∀ y ∈ im.mqueue, y.src ≠ .grp I.gr.uid

/-- The byte of a place of a local store. -/
def localByte (s : State) (x : CopyEnd) : Byte := match x with | .loc c a => SMap.get 0 (s.core c).ls a | _ => 0

/-- R247, R286: an LCOPY from local stores has the bytes that they held as it was accepted. -/
def ReadsLocal (s : State) (E : Eng) (a : BitVec 6) (v : BitVec 7) (o : CopyOp) : Prop :=
  let l := lcopyLanes (E.lcopyRefs s a v)
  (∀ x ∈ l, x.2.1 ≠ [] ∧ ∀ y ∈ x.2.1, ∃ c b, y = .loc c b ∧ s.lsHome c E.ctx b = none) → s.badSram = [] →
    o.causes = [] ∧ o.need = [] ∧ o.cells.map (fun y => (y.dst, y.val))
      = l.flatMap fun x => x.2.2.zipIdx.map fun p => (p.1, localByte s (x.2.1.getD p.2 .zero))

end Sys2Proof.Claims

/-- R236, R241 to R243, R247 to R250: a BCOPY whose queue has room enters it, with its tensor base, record and box read from its registers, and its status
register is pending for a group; a fill makes its tile FILLING, a drain makes it DRAINING. LCOPY enters the load queue, with the bytes that it reads, and names the barrier word at
which it will arrive. (That the acceptance waits where an atomic of the group stands before a byte is the model's choice: log 81.) CSEAL moves the issuer's new copies into a batch and seals it; CWAIT of a sealed batch goes on once its copies are complete, and
waits until then; one of an unsealed batch takes 0xAC. -/
def Obligations.CopyInstructions : Prop :=
  ∀ (m : Bool) (s : State) (E : Eng) (w : Workgroup), EngIssues s E → EngUsable E m [] → E.wgOf s = some w →
    (∀ (c : BitVec 7) (a : BitVec 6) (d : BitVec 7) (store : Bool), NoneOutstanding s E → EngUsable E m [(c.toNat, 8), (d.toNat, 1), (a6 a, 2)] →
      (s.core E.core).copyCount store < 16 → s.queueWaiters E.core false (.copyQueue store) = [] →
      let i (t : BitVec 1) : Instr := if store then .bcopyL2g m t c a d else .bcopyG2l m t c a d
      let box (o : CopyOp) : Prop := o.base = (E.rd64 (a6 a)).toNat ∧ o.record = (E.rd64 c.toNat).toNat
        ∧ o.origin = [(E.rd (c.toNat + 4)).toInt, (E.rd (c.toNat + 5)).toInt, (E.rd (c.toNat + 6)).toInt, (E.rd (c.toNat + 7)).toInt]
      Queues (i 0) s E store false [d.toNat] (fun _ o => box o ∧ o.tile = none ∧ o.loc = (E.rd64 (c.toNat + 2)).toNat)
      ∧ ∀ e, (E.rd (c.toNat + 2)).toNat < 64 → w.tiles[(E.rd (c.toNat + 2)).toNat]? = some e → ((s.core E.core).tile e).valid = true →
          (store = true → ((s.core E.core).tile e).state = .ready) →
          (store = false → ((s.core E.core).tile e).state = .empty ∨ ((s.core E.core).tile e).state = .filling) →
          Queues (i 1) s E store false [d.toNat] fun t o => box o ∧ o.tile = some e ∧ o.loc = (E.rd (c.toNat + 3)).toNat
            ∧ ((t.core E.core).tile e).state = (if store then .draining else .filling)
            ∧ (store = false → ((t.core E.core).tile e).fills = ((s.core E.core).tile e).fills + 1)
            ∧ (store = true → ((t.core E.core).tile e).reads = ((s.core E.core).tile e).reads ++ [s.serial]))
    ∧ (∀ (i : BitVec 7) (a : BitVec 6) (v : BitVec 7), EngUsable E m [(v.toNat, 2), (a6 a, 2)] → Clear ((E.lcopyRefs s a v).map Prod.snd) →
      i.toNat < w.bars → expected (barIn s E.core w i.toNat) ≠ 0 → (s.core E.core).copyCount false < 16 →
      s.queueWaiters E.core false (.copyQueue false) = [] → NoneOutstanding s E →
      Queues (.lcopy m i a v) s E false true [] fun _ o => o.word = barOff w i.toNat ∧ o.bytes = 16 * (lanes E.rows).length ∧ ReadsLocal s E a v o)
    ∧ (∀ n : BitVec 3, (∃ t, exec (.cseal m n) s = .next t ∧ SameMem s t ∧ EngEnds t E []
        ∧ (∀ I, E = .grp I → ∃ G, t.grp I.c I.g = some G ∧ G.newCopies = [] ∧ (batchOf G.batches n.toNat).isSealed = true
            ∧ (batchOf G.batches n.toNat).ops = (batchOf I.gr.batches n.toNat).ops ++ I.gr.newCopies
            ∧ ∀ k, k ≠ n.toNat → batchOf G.batches k = batchOf I.gr.batches k)
        ∧ ∀ c cp q, E = .seq c cp q → ((t.core c).seqOf cp).newCopies = [] ∧ (batchOf ((t.core c).seqOf cp).batches n.toNat).isSealed = true
            ∧ (batchOf ((t.core c).seqOf cp).batches n.toNat).ops = (batchOf q.batches n.toNat).ops ++ q.newCopies))
    ∧ ∀ (n : BitVec 3) (b : Batch), b = batchOf (match E with | .grp I => I.gr.batches | .seq _ _ q => q.batches) n.toNat →
        (b.isSealed = true → (∀ op ∈ b.ops, s.copyOf op = none) → ∃ t, exec (.cwait m n) s = .next t ∧ SameMem s t ∧ EngEnds t E [])
        ∧ ∀ I, E = .grp I → (b.isSealed = true → (∃ op ∈ b.ops, s.copyOf op ≠ none) → Holds (.cwait m n) s I (.cwait n.toNat) fun t _ => SameMem s t)
          ∧ (I.gr.sup = false → b.isSealed = false → Traps (.cwait m n) s I 0xAC)

/-- R252, R254, R255, R257, R258, R263: each of these instructions completes. FORK starts the sequencers whose operands are not 0 at its own PC plus
their offsets, with the group's s0 to s15 and the group as their owner; in user mode, where one of them is not IDLE, it takes 0xAB and starts none.
RDV with each of the group's sequencers ENDED or already reported writes their causes and the bits of those it owns, and makes them IDLE without an owner;
while one still runs it parks the group in place; in user mode, where one of them STOPPED, it takes 0xA7 (0xA8 for the copy sequencer), after which that
one counts as reported. ENDSEQ ends a sequencer's program; with its marker it stops the sequencer with 0x08, and a group takes 0x09. COLL of a READY tile and
DPOST, at a barrier word in use, record the group's issue and leave the status register pending. -/
def Obligations.ForkAndCollectiveInstructions : Prop :=
  (∀ (s : State) (c : Nat) (cp : Bool), s.cur = some (.seq c cp) →
    exec (.endseq false) s = .next (s.setSeq c cp { (s.core c).seqOf cp with run := .ending })
    ∧ (((s.core c).seqOf cp).run = .running → Stops (.endseq true) s c cp 0x08))
  ∧ ∀ (m : Bool) (s : State) (I : Iss), Issues s I →
    (∀ a b : BitVec 7, Usable I.gr [(a.toNat, 1), (b.toNat, 1)] →
      let fm := I.gr.rd a.toNat (lowest I.sp.mask)
      let fc := I.gr.rd b.toNat (lowest I.sp.mask)
      let k := s.core I.c
      let Starts (off : Word) (q Q : Sequencer) : Prop := (off = 0 → Q = q) ∧ (off ≠ 0 → Q.run = .running
        ∧ Q.pc = I.sp.pc + BitVec.ofInt 17 off.toInt ∧ (∀ r, r < 16 → Q.rd (96 + r) = I.gr.sget r) ∧ Q.owner = some I.gr.uid ∧ Q.cause = 0)
      ((fm = 0 ∨ k.mseq.run = .idle) → (fc = 0 ∨ k.cseq.run = .idle) → Goes (.fork m b a) s I fun t G =>
          SameRegs I.gr G ∧ Kept I.gr G ∧ SameMem s t ∧ Starts fm k.mseq (t.core I.c).mseq ∧ Starts fc k.cseq (t.core I.c).cseq)
      ∧ (I.gr.sup = false → (fm ≠ 0 ∧ k.mseq.run ≠ .idle) ∨ (fc ≠ 0 ∧ k.cseq.run ≠ .idle) → Traps (.fork m b a) s I 0xAB))
    ∧ (∀ d : BitVec 7, Usable I.gr [(d.toNat, 1)] →
      let k := s.core I.c
      let u := some I.gr.uid
      let mine (q : Sequencer) : Nat := if q.owner = u then q.cause.toNat else 0
      ((k.mseq.owner = u → k.mseq.run = .ended ∨ k.mseq.run = .reported) → (k.cseq.owner = u → k.cseq.run = .ended ∨ k.cseq.run = .reported) →
        Goes (.rdv m d) s I fun t G => Kept I.gr G ∧ SameMem s t
          ∧ Writes I.gr G I.sp.mask d.toNat (fun _ => BitVec.ofNat 32 (mine k.mseq + mine k.cseq * 2 ^ 8
              + (if k.mseq.owner = u then 2 ^ 16 else 0) + (if k.cseq.owner = u then 2 ^ 17 else 0)))
          ∧ (k.mseq.owner = u → (t.core I.c).mseq.run = .idle ∧ (t.core I.c).mseq.owner = none)
          ∧ (k.cseq.owner = u → (t.core I.c).cseq.run = .idle ∧ (t.core I.c).cseq.owner = none))
      ∧ ((k.mseq.owner = u ∧ (k.mseq.run = .running ∨ k.mseq.run = .ending)) ∨ (k.cseq.owner = u ∧ (k.cseq.run = .running ∨ k.cseq.run = .ending)) →
        Runs (.rdv m d) s I fun G => SameRegs I.gr G ∧ SamePreds I.gr G ∧ G.park = .rdv I.k d m)
      ∧ (I.gr.sup = false → k.mseq.owner = u → k.mseq.run = .stopped → s.seqBusy I.c false = false → s.seqOver I.c true I.gr.uid = true →
        ∃ t, exec (.rdv m d) s = .next t ∧ Trapped t I 0xA7 I.sp.mask I.sp.pc false ∧ (t.core I.c).mseq = { k.mseq with run := .reported })
      ∧ (I.gr.sup = false → k.cseq.owner = u → k.cseq.run = .stopped → s.seqBusy I.c true = false →
        (k.mseq.owner = u → k.mseq.run = .ended ∨ k.mseq.run = .reported) →
        ∃ t, exec (.rdv m d) s = .next t ∧ Trapped t I 0xA8 I.sp.mask I.sp.pc false ∧ (t.core I.c).cseq = { k.cseq with run := .reported }))
    ∧ (I.gr.sup = false → Traps (.endseq m) s I 0x09)
    ∧ (I.sp.acq = [] → ∀ (i : BitVec 4) (a : BitVec 6) (d : BitVec 7) (w : Workgroup), Usable I.gr [(d.toNat, 1), (a6 a, 2)] → s.wgOf I.c I.gr.wg = some w →
      i.toNat < w.bars → expected (barIn s I.c w i.toNat) ≠ 0 →
      let x (e : Nat) : CollIssue := ⟨I.gr.uid, d, I.sp.mask, I.gr.rd64 (a6 a) (lowest I.sp.mask), e, barOff w i.toNat, s.serial⟩
      let Pend (t : State) (G : Group) : Prop := SameRegs I.gr G ∧ Kept I.gr { G with pend := I.gr.pend } ∧ SameMem s t
        ∧ ∀ r, r ∈ G.pend ↔ r ∈ I.gr.pend ∨ r = d.toNat
      (∀ (t : BitVec 6) (e : Nat), w.tiles[t.toNat]? = some e → ((s.core I.c).tile e).valid = true → ((s.core I.c).tile e).state = .ready →
        Goes (.coll m i t a d) s I fun u G => Pend u G ∧ G.collNext = I.gr.collNext + 1
          ∧ ∃ y, u.wgOf I.c I.gr.wg = some y ∧ SMap.get [] y.colls I.gr.collNext = SMap.get [] w.colls I.gr.collNext ++ [x e])
      ∧ Goes (.dpost m i a d) s I fun u G => Pend u G ∧ ∃ y, u.members.look s.serial = some y ∧ y.exchange = true ∧ y.issues = [x 0]
          ∧ y.core = I.c ∧ y.ctx = I.gr.ctx)

/-! ### What ends waits, and what the agents of the memory system do. An event whose time has not come changes nothing. -/

namespace Sys2Proof.Claims

/-- An event answers a next state that a test accepts. -/
def Comes (i : Instr) (s : State) (P : State → Prop) : Prop := ∃ t, exec i s = .next t ∧ P t

/-- The group with its park over: a marker that came with it parks it again while something is pending (R11), but for a deferred cause to take (R155). -/
def Unparked (x G : Group) : Prop :=
  G.park = (if x.parkMark = true ∧ x.pend ≠ [] ∧ x.meetsRecord = false then .marker else .run) ∧ SameRegs x G ∧ SamePreds x G ∧ G.sat = x.sat ∧ Kept x G
    ∧ G.slots = x.slots ∧ G.spill = x.spill

/-- The group of a slot, with a test. -/
def InGroup (t : State) (c g : Nat) (P : Group → Prop) : Prop := ∃ G, t.grp c g = some G ∧ P G

/-- A split of a group that stood at a PC has gone on to the next instruction. -/
def Resumed (x G : Group) (sp : Split) : Prop := StandsAt G (sp.pc + 2) sp.mask ∧ SamePreds x G ∧ G.sat = x.sat

end Sys2Proof.Claims

/-- R11, R27, R151, R152, R155, R186, R255: how a group's waits end: at a marker once nothing is pending; WAITALL once its writes are done; FENCE
once they are at its scope; YIELD once its set is empty or its 64 clk are over; a trap is entered once nothing is pending; a deferred cause is
taken by the split that meets it, in a group that is neither parked nor about to enter a trap; a spill record is exchanged with a slot; RDV reports once the group's sequencers are over. -/
def Obligations.GroupWaitsEnd : Prop :=
  ∀ (s : State) (c g : Nat) (x : Group), s.grp c g = some x →
    (x.park = .marker → x.pend = [] → exec (.groupUnpark c g) s = .next (s.setGrp c g { x with park := .run }))
    ∧ (∀ noted n, x.park = .yield noted n → (noted = [] ∨ n ≤ s.clkOf c) → Comes (.yieldEnd c g) s fun t => SameMem s t ∧ InGroup t c g (Unparked x))
    ∧ (x.park = .waitall → x.pend = [] → s.ownWritesDone x.uid = true → Comes (.waitallComplete c g) s fun t => SameMem s t ∧ InGroup t c g (Unparked x))
    ∧ (∀ k sc n, x.park = .fence k sc n → s.shadows = [] → (k ≠ 1 → s.writesPerformed x.uid c x.ctx sc n = true) →
        (k ≠ 2 → s.valuesHeld x.uid n = true) → Comes (.fenceComplete c g) s fun t => SameMem s t ∧ InGroup t c g (Unparked x)
          ∧ (k ≠ 2 → sc.wide = true → ∀ l ∈ (t.core c).l1, l.ctx ≠ x.ctx))
    ∧ (∀ q sp, x.trapPend = some q → x.pend = [] → x.slots.look q.slot = some sp → Comes (.trapEntry c g) s fun t => InGroup t c g fun G =>
        G.sup = true ∧ G.trapPend = none ∧ G.trapcause = q.cause ∧ G.trapmask = q.mask ∧ SameRegs x G ∧ SamePreds x G
          ∧ G.slots.look q.slot = some { pc := (s.core c).handler q.cause, mask := q.mask, frame := sp.frame })
    ∧ (∀ k, x.park ≠ .run ∨ x.trapPend ≠ none ∨ (s.core c).halted = true → exec (.deferredCauseTake c g k) s = .next s)
    ∧ (∀ k I r, s.iss c g k = some I → x.deferredFor I.sp = some r → x.pend = [] → x.park = .run → x.trapPend = none → (s.core c).halted = false → Comes (.deferredCauseTake c g k) s fun t => InGroup t c g fun G =>
        G.sup = true ∧ G.trapcause = r.cause ∧ (∀ L, G.trapmask.getLsbD L = true ↔ L < 32 ∧ I.sp.mask.getLsbD L = true ∧ ∃ p ∈ r.lanes, p.1 = L)
          ∧ G.trapsplit.getLsbD 49 = false ∧ G.trapsplit.extractLsb' 32 17 = I.sp.pc)
    ∧ (∀ r i y, x.exchangeDue = some (r, i, y) → x.park = .run → x.trapPend = none → (s.core c).halted = false →
        Comes (.spillExchange c g) s fun t => SameMem s t ∧ InGroup t c g fun G => StandsAt G r.pc r.mask ∧ StandsAt G y.pc y.mask
          ∧ x.stall + 4 ≤ G.stall ∧ SameRegs x G ∧ SamePreds x G ∧ Kept x G)
    ∧ (∀ k d m sp, x.park = .rdv k d m → x.slots.look k = some sp → (s.core c).halted = false →
        ((s.core c).mseq.owner = some x.uid → (s.core c).mseq.run = .ended) → ((s.core c).cseq.owner = some x.uid → (s.core c).cseq.run = .ended) →
        Comes (.rdvComplete c g) s fun t => SameMem s t ∧ (t.core c).mseq.owner ≠ some x.uid ∧ (t.core c).cseq.owner ≠ some x.uid
          ∧ InGroup t c g fun G => Resumed x G sp ∧ Writes x G sp.mask d.toNat (fun _ => (s.core c).rdvWord x.uid))

namespace Sys2Proof.Claims

/-- A group on a core that is not halted, by its identity, which no other group has, in a state without reduction shadows or poisoned sectors. -/
def Lives (s : State) (uid c g : Nat) (x : Group) : Prop :=
  s.findUid uid = some (c, g) ∧ (∀ p ∈ s.cores, ∀ q ∈ p.2.groups, q.2.uid = uid → p.1 = c ∧ q.1 = g) ∧ s.grp c g = some x ∧ (s.core c).halted = false ∧ s.poisoned = [] ∧ s.shadows = []

end Sys2Proof.Claims

/-- R161, R162, R192 to R194, R199, R202, R219, R226, R233, R249: how a split's wait in an instruction ends: each event does the instruction's work,
and the split that waits for it goes on to the next instruction; a PUBLISH whose window is registered no longer takes 0x8C (R439). -/
def Obligations.SplitWaitsEnd : Prop :=
  (∀ (s : State) (c g : Nat) (x : Group) (sp : Split) (k : Nat), s.grp c g = some x → (k, sp) ∈ x.slots →
    (∀ e, sp.wait = .tfree e → ((s.core c).tile e).valid = true → ((s.core c).tile e).fills = 0 → ((s.core c).tile e).reads = [] →
      ((s.core c).tile e).writes = [] → Comes (.tfreeComplete c e) s fun t => SameMem s t
        ∧ (t.core c).tile e = { wg := ((s.core c).tile e).wg } ∧ InGroup t c g fun G => Resumed x G sp ∧ SameRegs x G)
    ∧ (∀ n, sp.wait = .cwait n → n < 8 → x.slots = [(k, sp)] → x.spill = [] → (s.core c).halted = false → c < 96 → g < 48 →
        (∀ op ∈ (batchOf x.batches n).ops, s.copyOf op = none) → Comes (.cwaitComplete c g) s fun t => SameMem s t
          ∧ InGroup t c g fun G => Resumed x G sp ∧ SameRegs x G ∧ (batchOf G.batches n).isSealed = false)
    ∧ (∀ upto f u q r a, sp.wait = .acc2v upto f u q r a → k < 4 → x.slots.look k = some sp → (s.core c).halted = false →
        (∀ o ∈ (s.core c).mqueue, upto ≤ o.op) → Comes (.acc2vComplete c g k) s fun t => SameMem s t
          ∧ InGroup t c g fun G => Resumed x G sp ∧ Kept x G ∧ ∀ F, maccFmt f = some F → r.toNat + maccRegs f.toNat ≤ 96 →
            ∀ j L, j < maccRegs f.toNat → sp.mask.getLsbD L = true → G.vget (r.toNat + j) L = BitVec.ofNat 32
              (ofBytes (((quarterBytes F (decide (u = 1)) (SMap.get {} (s.core c).accs a) q.toNat L).drop (4 * j)).take 4)))
    ∧ (∀ w I, sp.wait = .publish w → s.iss c g k = some I → I.sp = sp → (SMap.get ({} : Window) s.windows w).en = false → x.sup = false →
        (∀ p ∈ s.ops, p.2.uid ≠ x.uid) → Comes (.publishAccept c g k) s fun t => Trapped t I 0x8C sp.mask sp.pc false)
    ∧ (∀ w, sp.wait = .publish w → x.slots.look k = some sp → (SMap.get ({} : Window) s.windows w).en = true → (∀ p ∈ s.ops, p.2.uid ≠ x.uid) →
        Comes (.publishAccept c g k) s fun t =>
        (SMap.get ({} : Window) t.windows w).staged = []
          ∧ (SMap.get ({} : Window) t.windows w).drains = (SMap.get ({} : Window) s.windows w).drains ++ [(SMap.get ({} : Window) s.windows w).staged]
          ∧ InGroup t c g fun G => Resumed x G sp ∧ SameRegs x G)
    ∧ (∀ o page, sp.wait = .tlbinv o.op → s.ops.look o.op = some o → o.kind = .tlbinv page → Lives s o.uid c g x → s.accessesDone o.ctx o.op = true →
        Comes (.tlbinvComplete o.op) s fun t => SameMem s t ∧ t.ops.look o.op = none
          ∧ NoTlb t (fun e => match page with | some p => e.covers o.ctx p | none => decide (e.ctx = o.ctx))
          ∧ InGroup t c g fun G => Resumed x G sp ∧ SameRegs x G)
    ∧ (∀ o l at_, sp.wait = .mappg o.op → s.ops.look o.op = some o → o.kind = .mappg at_ → Lives s o.uid c g x → o.lanes = [l] → l.lane < 32 →
        o.mask = 1 <<< l.lane →
        let Maps (out : Word) (P : State → Prop) : Prop := Comes (.mappgComplete o.op) s fun t => t.ops.look o.op = none ∧ P t
          ∧ InGroup t c g fun G => Resumed x G sp ∧ Writes x G o.mask o.d.toNat (fun _ => out)
        (2 ^ 52 ≤ l.va.toNat → Maps 3 (SameMem s))
        ∧ (l.va.toNat < 2 ^ 52 → s.mapEnd o.ctx (l.va.toNat / 65536) = .bad → Maps 3 (SameMem s))
        ∧ (l.va.toNat < 2 ^ 52 → s.mapEnd o.ctx (l.va.toNat / 65536) = .mapped → Maps 2 (SameMem s))
        ∧ ∀ e, l.va.toNat < 2 ^ 52 → s.mapEnd o.ctx (l.va.toNat / 65536) = .missing 0 e →
          let b := (l.arg.headD 0).toNat
          let p := if leafBit b 9 then 8 else leafHgroup b
          let frame := s.rdM (s.listBase o.ctx p + 4 * (s.listCount o.ctx p - 1)) 4
          s.badSectors = [] → s.rdM (s.pool o.ctx + 0xA0) 1 ≤ 8 → 0 < s.listCount o.ctx p → s.frameFree (s.dpaOf (leafBit b 9) (leafHgroup b) (frame * 65536)) o.ctx = true →
          Maps 0 fun t => t.rdM e 8 = leafEntry b frame)
    ∧ (∀ o l I v, s.ops.look o.op = some o → o.kind = .mperm → s.permWaiter o = some (.grp I) → s.iss I.c I.g I.k = some I → o.lanes = [l] →
        l.val = some v → v ≠ [] → s.poisoned = [] → permOk ((v.flatMap fun w => toBytes 4 w.toNat).map BitVec.toNat) = true → (s.core I.c).mqueue.length < 16 →
        (s.core I.c).halted = false → I.gr.park = .run → I.gr.trapPend = none → (I.gr.sup = true → I.gr.handles I.sp = true) →
        (s.queueWaiters I.c true .matrixQueue).head? = some (.split I.c I.g I.k) → Comes (.mpermDataArrive o.op) s fun t => SameMem s t ∧ t.ops.look o.op = none
          ∧ (t.core I.c).mqueue = (s.core I.c).mqueue ++ [⟨s.serial, .grp I.gr.uid, I.gr.ctx, I.gr.wg, I.sp.mask, I.gr.sup,
              .mperm ((v.flatMap fun w => toBytes 4 w.toNat).map BitVec.toNat)⟩]
          ∧ InGroup t I.c I.g fun G => Resumed I.gr G I.sp ∧ SameRegs I.gr G))
  ∧ (∀ (s : State) (c off count : Nat) (a : Arrival), (s.core c).arrivals = [a] → s.arrivalReady c a = true → a.offset = off → 0 < count →
      a.arrivals = 1 → a.attached = 0 → (∀ b ∈ fromN off 8, s.lsHome c a.ctx b = none) →
      let x := (s.core c).bar off
      a.drops < expected x → awaited x ≠ 0 → Comes (.barrierBankUpdate c off count) s fun t =>
        let y := (t.core c).bar off
        (t.core c).arrivals = [] ∧ expected y = expected x - a.drops
        ∧ (1 < awaited x → awaited y = awaited x - 1 ∧ phaseOf y = phaseOf x)
        ∧ (awaited x = 1 → awaited y = expected y ∧ phaseOf y = phaseOf x + 1
          ∧ ∀ g z k sp, s.grp c g = some z → (k, sp) ∈ z.slots → sp.wait = .phase off (phaseOf x) → InGroup t c g fun G => Resumed z G sp ∧ SameRegs z G))
  ∧ ∀ (s s1 : State) (q c g va : Nat) (o : Op) (x : Group) (rest : List (Nat × Nat)) (l : LaneAcc), (SMap.get ({} : Queue) s.queues q).pushers = (o.uid, o.op) :: rest →
      o.kind = .qpush q → o.nd = 2 → o.d.toNat + 2 ≤ 128 → (o.d.toNat < 96 → o.d.toNat + 2 ≤ 96) → s.ops.look o.op = some o → o.lanes = [l] → l.pas = [] →
      s.badSectors = [] → Lives s o.uid c g x → s.pushSlot q x.ident = some (va, s1) → x.park = .qpush o.op q → Comes (.qpushGrant q) s fun t =>
        (SMap.get ({} : Queue) t.queues q).pushers = rest ∧ Received t o c g x (fun _ j => BitVec.ofNat 32 (va / 2 ^ (32 * j)))
          ∧ InGroup t c g fun G => G.park ≠ .qpush o.op q

namespace Sys2Proof.Claims

/-- R204, R226: the oldest operation of a core's matrix queue, on a core that is not halted, with no ACC2V that was issued before it waiting. -/
def Oldest (s : State) (c : Nat) (o : MatrixOp) (rest : List MatrixOp) : Prop :=
  (s.core c).mqueue = o :: rest ∧ (s.core c).halted = false ∧ (s.core c).acc2vFirst o.op = false

/-- An operation of the matrix queue is done: no memory and no register changes with it, and every other accumulator, the slots and the
permutation table are as before, unless the test that follows says otherwise. -/
def Performs (i : Instr) (s : State) (c : Nat) (rest : List MatrixOp) (P : State → Prop) : Prop :=
  Comes i s fun t => (t.core c).mqueue = rest ∧ (∀ d b, t.dieView d b = s.dieView d b) ∧ (∀ k, t.grp c k = s.grp c k) ∧ P t

/-- The accumulator `a` has in rows and columns of a test the value `f`, and elsewhere, and every other accumulator, what it had. -/
def AccHas (s t : State) (c a : Nat) (on : Nat → Nat → Prop) (f : Nat → Nat → Word) : Prop :=
  (∀ i n, i < 32 → n < 32 → on i n → ((t.core c).acc a).get i n = f i n)
    ∧ (∀ i n, i < 32 → n < 32 → ¬ on i n → ((t.core c).acc a).get i n = ((s.core c).acc a).get i n)
    ∧ ((t.core c).acc a).scale = ((s.core c).acc a).scale ∧ ∀ b, b ≠ a → (t.core c).acc b = (s.core c).acc b

/-- The local stores are as before, and so are the weight slots and the permutation table of a core. -/
def SameEngine (s t : State) (c : Nat) : Prop :=
  (∀ k b, SMap.get 0 (t.core k).ls b = SMap.get 0 (s.core k).ls b) ∧ (∀ w, (t.core c).slot w = (s.core c).slot w) ∧ (t.core c).perm = (s.core c).perm

/-- The byte of a tile at an offset. -/
def tileByte (s : State) (c e b : Nat) : Nat := (SMap.get 0 (s.core c).ls ((s.core c).tileAt e + b)).toNat

end Sys2Proof.Claims

/-- R57, R58, R210 to R212, R215 to R218, R220, R221, R225, R227: the matrix engine performs its oldest operation: MMA accumulates, in the operation's rows, sums of 32
products at a time with one rounding each, or NaN where the slot is marked or its image has another format; MZERO, MBAND, MPERM; ACC2T and
T2ACC round and widen elements between an accumulator and a tile; V2ACC writes eight columns; MLDB expands a stream from the local store into its
slot. With room in the queue it is the first waiter's turn next (an issue, or the deferred cause or the MPERM table that comes first), and the narrow mode follows the die's power alarm. (The
model's choices: room in the queue puts the waiter's turn on the agenda, log 58; the order among waiters, log 46.) -/
def Obligations.MatrixEnginePerforms : Prop :=
  ∀ (s : State) (c : Nat) (o : MatrixOp) (rest : List MatrixOp),
    (∀ w ws, s.queueWaiters c true .matrixQueue = w :: ws → (s.core c).mqueue.length < 16 → (s.core c).halted = false →
      exec (.matrixQueueAccept c) s = .next { s with agenda := s.queueTurn w :: s.agenda })
    ∧ (Comes (.narrowModeChange c) s fun t => SameMem s t ∧ (t.core c).narrow = s.regs.alarm.getLsbD (c / 12))
    ∧ (Oldest s c o rest →
      (∀ a e w f z perm x, o.kind = .mma a e w f z perm → mmaFmt f.toNat = some x →
        let q := (s.core c).slot w
        let old (i n : Nat) : Word := if z then 0 else ((s.core c).acc a).get i n
        let prod (i n k : Nat) : FV := mmaProduct x.b
          (aElem x ((s.core c).acc a).scale.toNat (tileByte s c e) i (if perm then (s.core c).permOf k else k))
          (bElem x.b q.scale.toNat (fun b => (SMap.get 0 q.image b).toNat) k n)
        (q.mark = true ∨ (q.tag ≠ 0xF ∧ q.tag.toNat ≠ x.b) → Performs (.mmaPerform c) s c rest fun t => SameEngine s t c
          ∧ AccHas s t c a (fun i _ => o.rows.getLsbD i = true) (fun _ _ => 0x7FC00000))
        ∧ (q.mark = false → q.tag = 0xF → Performs (.mmaPerform c) s c rest fun t => SameEngine s t c
          ∧ AccHas s t c a (fun i _ => o.rows.getLsbD i = true) old)
        ∧ (q.mark = false → q.tag.toNat = x.b → Performs (.mmaPerform c) s c rest fun t => SameEngine s t c
          ∧ AccHas s t c a (fun i _ => o.rows.getLsbD i = true) fun i n => mmaSum (old i n) (prod i n) (x.k / 32)))
      ∧ (∀ a, o.kind = .mzero a → Performs (.mctlPerform c) s c rest fun t => SameEngine s t c
          ∧ AccHas s t c a (fun i _ => o.rows.getLsbD i = true) (fun _ _ => 0))
      ∧ (∀ p, o.kind = .mperm p → Performs (.mctlPerform c) s c rest fun t => (t.core c).perm = p ∧ ∀ a, (t.core c).acc a = (s.core c).acc a)
      ∧ (∀ w v, o.kind = .mbandW w v → Performs (.mctlPerform c) s c rest fun t => (t.core c).slot w = { (s.core c).slot w with scale := v }
          ∧ (∀ n, n ≠ w → (t.core c).slot n = (s.core c).slot n) ∧ ∀ a, (t.core c).acc a = (s.core c).acc a)
      ∧ (∀ a v, o.kind = .mbandA a v → Performs (.mctlPerform c) s c rest fun t => SameEngine s t c
          ∧ (t.core c).acc a = { (s.core c).acc a with scale := v } ∧ ∀ b, b ≠ a → (t.core c).acc b = (s.core c).acc b)
      ∧ (∀ e a f sat F, o.kind = .acc2t e a f sat → maccFmt f = some F → Performs (.maccPerform c) s c rest fun t =>
          (∀ b, (t.core c).acc b = (s.core c).acc b)
          ∧ (∀ i n j, i < 32 → n < 32 → j < F.bits / 8 → o.rows.getLsbD i = true →
              SMap.get 0 (t.core c).ls ((s.core c).tileAt e + F.bits / 8 * (32 * i + n) + j)
                = BitVec.ofNat 8 (F.rne sat (fw (((s.core c).acc a).get i n)) / 256 ^ j))
          ∧ ∀ b, (∀ i, o.rows.getLsbD i = true → b < (s.core c).tileAt e + F.bits * 4 * i ∨ (s.core c).tileAt e + F.bits * 4 * (i + 1) ≤ b) →
              SMap.get 0 (t.core c).ls b = SMap.get 0 (s.core c).ls b)
      ∧ (∀ e a f F, o.kind = .t2acc e a f → maccFmt f = some F → Performs (.maccPerform c) s c rest fun t => SameEngine s t c
          ∧ AccHas s t c a (fun i _ => o.rows.getLsbD i = true) fun i n =>
              wf32 (F.decode (ofBytes ((fromN (F.bits / 8 * (32 * i + n)) (F.bits / 8)).map fun b => BitVec.ofNat 8 (tileByte s c e b)))))
      ∧ (∀ a q rows, o.kind = .v2acc a q rows → q < 4 → Performs (.maccPerform c) s c rest fun t => SameEngine s t c
          ∧ AccHas s t c a (fun i n => o.rows.getLsbD i = true ∧ 8 * q ≤ n ∧ n < 8 * q + 8) fun i n => (SMap.get [] rows i).getD (n - 8 * q) 0)
      ∧ ∀ w va q, o.kind = .mldb w va → (s.core c).streams = [(o.op, q)] → q.need = [] →
          (q.fail = none → Performs (.mldbComplete c) s c rest fun t => (∀ a, (t.core c).acc a = (s.core c).acc a)
            ∧ (∀ n, n ≠ w → (t.core c).slot n = (s.core c).slot n)
            ∧ let x := ofBytes (q.bytes.take 16)
              ((t.core c).slot w).tag.toNat = x / 2 ^ 80 % 16 ∧ ((t.core c).slot w).mark = false ∧ ((t.core c).slot w).scale = ((s.core c).slot w).scale
              ∧ (∀ u k j, (presentUnits x)[k]? = some u → j < 32 →
                  SMap.get 0 ((t.core c).slot w).image (32 * u + j) = q.bytes.getD (16 + 32 * k + j) 0)
              ∧ ∀ u j, u ∉ presentUnits x → j < 32 → SMap.get 0 ((t.core c).slot w).image (32 * u + j) = 0)
          ∧ ∀ k va' uid g z, q.fail = some (k, va') → o.sup = false → o.src = .grp uid → Lives s uid c g z →
              z.defer k ((lanes o.rows).map fun L => (L, BitVec.ofNat 64 va')) false ≠ none → Comes (.mldbComplete c) s fun t =>
                (t.core c).mqueue = rest ∧ (∀ d b, t.dieView d b = s.dieView d b) ∧ (t.core c).slot w = { (s.core c).slot w with mark := true }
                ∧ InGroup t c g fun G => G = z.deferred_ k ((lanes o.rows).map fun L => (L, BitVec.ofNat 64 va')))

namespace Sys2Proof.Claims

/-- R239, R246, R247: a copy of a live group, into local stores, that met no cause and no poisoned data: all that it reads has come, and nothing of the
group's earlier accesses and copies stands in the way of its writes. -/
def CopyRead (s : State) (o : CopyOp) (c g : Nat) (x : Group) : Prop :=
  s.copyOf o.op = some o ∧ (∀ y ∈ o.cells, ∃ k a, y.dst = .loc k a ∧ s.lsHome k o.ctx a = none) ∧ o.need = []
    ∧ (o.lane = false → ∀ n ∈ o.reads, ∀ w ∈ (s.die (dieOf o.eng)).pw, w.sector / 4 ≠ n / 4)
    ∧ (∀ p ∈ s.cores, ∀ y ∈ p.2.loadQ ++ p.2.storeQ, y.src = o.src → o.op ≤ y.op)
    ∧ o.causes = [] ∧ o.poison = false ∧ o.tile = none ∧ o.src = .grp x.uid ∧ Lives s x.uid c g x ∧ s.ops = []

/-- The bytes that a copy's cells write to a local store, in order. -/
def copyBytes (o : CopyOp) (k : Nat) : List (Nat × Byte) :=
  o.cells.filterMap fun y => match y.dst with
    | .loc n a => if n = k then some (a, y.val) else none
    | _ => none

/-- A local store holds what a copy has written, and what it held elsewhere. -/
def Copied (s t : State) (o : CopyOp) : Prop :=
  ∀ k b, SMap.get 0 (t.core k).ls b = (lastByte (copyBytes o k) b).getD (SMap.get 0 (s.core k).ls b)

end Sys2Proof.Claims

/-- R202, R237, R238, R243, R246 to R248, R254: the copy engine's events: with room in a queue it is the first waiter's turn next (the load queue's before the store queue's); a BCOPY all of whose bytes are
read writes them, leaves its queue and gives its status word (no cause, the blocks of 512 bytes, and the bit for a late copy); an LCOPY
writes its bytes and arrives at its barrier; a sequencer past ENDSEQ with nothing left to run is ENDED, or IDLE with no owner; and a publish's drained
bytes become visible before its counter rises by 1. (The model's choices: room in a queue puts the first waiter's turn on the agenda, log 58, and the
order among waiters, log 46; what of a late copy's time is the host's, log 124.) -/
def Obligations.CopyEngineEvents : Prop :=
  (∀ (s : State) (c : Nat) (w : Issuer) (ws : List Issuer), (s.core c).halted = false →
    (s.queueWaiters c false (.copyQueue false) = w :: ws → (s.core c).loadQ.length < 16 →
      exec (.copyQueueAccept c) s = .next { s with agenda := s.queueTurn w :: s.agenda })
    ∧ (s.queueWaiters c false (.copyQueue true) = w :: ws → (s.core c).storeQ.length < 16 → s.queueWaiters c false (.copyQueue false) = [] →
      exec (.copyQueueAccept c) s = .next { s with agenda := s.queueTurn w :: s.agenda }))
  ∧ (∀ (s : State) (o : CopyOp) (c g : Nat) (x : Group), CopyRead s o c g x → o.lane = false →
      Comes (.bcopyComplete o.op) s fun t => Copied s t o ∧ (∀ d b, t.dieView d b = s.dieView d b) ∧ (∀ y ∈ (t.core o.eng).loadQ ++ (t.core o.eng).storeQ, y.op ≠ o.op)
        ∧ InGroup t c g fun G => SamePreds x G ∧ G.sat = x.sat ∧ Kept x { G with pend := x.pend } ∧ (∀ r, r ∈ G.pend ↔ r ∈ x.pend ∧ r ≠ o.d.toNat)
          ∧ Answers x G o.mask o.d.toNat (BitVec.ofNat 32
              ((if o.accepted + copyBound o.near o.bytes + o.excused < s.clkOf o.eng then 2 ^ 8 else 0) + (o.bytes + 511) / 512 * 2 ^ 9)))
  ∧ (∀ (s : State) (o : CopyOp) (c g : Nat) (x : Group), CopyRead s o c g x → o.lane = true → s.wgLives o.wuid = true →
      Comes (.lcopyComplete o.op) s fun t => Copied s t o ∧ (∀ d b, t.dieView d b = s.dieView d b) ∧ (∀ y ∈ (t.core o.eng).loadQ ++ (t.core o.eng).storeQ, y.op ≠ o.op)
        ∧ t.grp c g = some x ∧ (t.core o.core).arrivals = (s.core o.core).arrivals ++ [⟨o.word, 1, 0, 0, x.uid, o.ctx, o.op⟩])
  ∧ (∀ (s : State) (c : Nat) (cp : Bool), (s.core c).halted = false → s.seqBusy c cp = false → ((s.core c).seqOf cp).run = .ending →
      Comes (.sequencerEnd c cp.toNat) s fun t => SameMem s t
        ∧ ((t.core c).seqOf cp).run = (if ((s.core c).seqOf cp).owner = none then .idle else .ended)
        ∧ ((t.core c).seqOf cp).owner = ((s.core c).seqOf cp).owner)
  ∧ ∀ (s : State) (w : Nat) (d : List (Nat × Byte)) (rest : List (List (Nat × Byte))), (SMap.get ({} : Window) s.windows w).drains = d :: rest →
      let at_ := hostBase + (SMap.get ({} : Window) s.windows w).ctr.toNat
      s.shadows = [] → (∀ p ∈ d, p.1 < at_ ∨ at_ + 8 ≤ p.1) → Comes (.publishCounterWrite w) s fun t =>
        (SMap.get ({} : Window) t.windows w).drains = rest ∧ t.rdM at_ 8 = (s.rdM at_ 8 + 1) % 2 ^ 64
          ∧ ∀ a, a < at_ ∨ at_ + 8 ≤ a → t.merged a = (lastByte d a).getD (s.merged a)

namespace Sys2Proof.Claims

/-- R150, R371: a group has left its core, every other group is as before, and so is memory; with it, if it was the last, its workgroup,
which the launch counts among those ended. -/
def Left (s t : State) (c g : Nat) (x : Group) : Prop :=
  SameMem s t ∧ t.grp c g = none ∧ (∀ k n, k ≠ c ∨ n ≠ g → t.grp k n = s.grp k n)
    ∧ ∀ w, s.wgOf c x.wg = some w → (∀ p ∈ (s.core c).groupsOf x.wg, p.1 = g) → t.wgOf c x.wg = none
        ∧ ∀ l, s.launches.look w.launch = some l → ∃ l', t.launches.look w.launch = some l' ∧ l'.ended = l.ended + 1 ∧ l'.running = l.running - 1

/-- R354: the walker that had a walk is free, or, the other 63 being busy, has the next miss that waited. -/
def WalkerFree (s t : State) (d walk : Nat) : Prop :=
  ((s.die d).walkQueue = [] → (t.die d).walks.look walk = none)
    ∧ ∀ y rest, ((s.die d).walks.erase walk).length = 63 → (s.die d).walkQueue = y :: rest → (t.die d).walks.look y.walk = some y ∧ (t.die d).walkQueue = rest

end Sys2Proof.Claims

/-- R150, R194, R196, R197, R371: the end of groups and workgroups: a group with no lanes left and nothing outstanding leaves its core; a detaching
group leaves once its accesses are performed, and each elastic barrier word of its workgroup has one arrival and one drop more, in one update with the
arrivals that may land in this clk; a group whose lanes have all triggered or
exited sends its count once its writes are performed, and the launch counts a workgroup whose groups have all sent theirs. -/
def Obligations.GroupsLeave : Prop :=
  ∀ (s : State) (c g : Nat) (x : Group), s.grp c g = some x →
    (x.slots = [] → x.spill = [] → x.sup = false → x.trapPend = none → x.pend = [] → s.ownWritesDone x.uid = true →
      Comes (.groupEnd c g) s fun t => Left s t c g x)
    ∧ (x.park = .detach → s.valuesHeld x.uid s.serial = true → s.writesPerformed x.uid c x.ctx .workgroup s.serial = true →
      Comes (.detachRetire c g) s fun t => t.grp c g = none ∧ (∀ d a, t.dieView d a = s.dieView d a) ∧ (∀ k n, k ≠ c → t.grp k n = s.grp k n)
        ∧ ∀ w i, s.wgOf c x.wg = some w → i < w.bars →
            let b := Core.bar (s.core c) (w.barAt i)
            let l := s.landing c x.ctx (w.barAt i)
            Core.bar (t.core c) (w.barAt i) = if barElastic b then
              barUpdate b (1 + countOf Arrival.arrivals l) (1 + countOf Arrival.drops l) (countOf Arrival.attached l) else b)
    ∧ (x.countSent = false → x.triggered ||| x.exited = BitVec.allOnes 32 → s.shadows = [] → s.valuesHeld x.uid x.trigUpto = true →
        s.writesPerformed x.uid c x.ctx .device x.trigUpto = true → Comes (.triggerCount c g) s fun t => SameMem s t
          ∧ t.grp c g = some { x with countSent := true } ∧ (∀ k n, k ≠ c ∨ n ≠ g → t.grp k n = s.grp k n)
          ∧ ∀ w l, s.wgOf c x.wg = some w → s.launches.look w.launch = some l →
              (∀ p ∈ ((s.setGrp c g { x with countSent := true }).core c).groupsOf x.wg, p.2.countSent = true) →
              ∃ l', t.launches.look w.launch = some l' ∧ w.uid ∈ l'.counted)

/-- R324, R345, R351, R353, R354: a walk that meets no poisoned entry ends: a fault is kept for the cores that wait, a leaf gets its accessed bit and enters the die's lookaside buffer,
and the walker takes the next miss; a context's ways change and those added start cleaning; a way is clean when no line is left in it; a
slice that holds nothing is gated, and a miss of its die wakes it. (The model's choice: the change of a context's ways writes the mask into its quota record, log 43.) -/
def Obligations.WalksWaysAndSlices : Prop :=
  (∀ (s : State) (d walk : Nat) (w : Walk), (s.die d).walks.look walk = some w → w.demand = true → w.fetches = [] → s.poisoned = [] → s.shadows = [] → s.badSram = [] →
    (∀ pa ∈ (s.walk w.ctx w.page).2, ∀ p ∈ (s.die d).pw, p.sector ≠ sectorOf pa) →
    (∀ kind, (s.walk w.ctx w.page).1 = .fault kind → Comes (.pageWalkComplete d walk) s fun t => SameMem s t ∧ WalkerFree s t d walk
      ∧ ∀ c, (t.core c).faults = if c / 12 = d ∧ (s.core c).awaits w.ctx w.page = true then (s.core c).faults ++ [{ w with fault := some kind, fetches := [] }]
          else (s.core c).faults)
    ∧ ∀ lvl e at_, (s.walk w.ctx w.page).1 = .leaf lvl e at_ → Comes (.pageWalkComplete d walk) s fun t => WalkerFree s t d walk
      ∧ t.rdM at_ 8 = (if s.rdM at_ 8 / 16 % 2 = 1 then s.rdM at_ 8 else s.rdM at_ 8 + 16) ∧ (∀ a, a < at_ ∨ at_ + 8 ≤ a → t.merged a = s.merged a)
      ∧ (⟨w.ctx, w.page, lvl, BitVec.ofNat 64 (t.rdM at_ 8)⟩ : TlbEntry) ∈ (t.die d).tlb)
  ∧ (∀ (s : State) (d ctx : Nat) (mask : BitVec 16), Comes (.wayMaskChange d ctx mask) s fun t =>
      t.wayMask d ctx = mask ∧ (∀ w, w < 16 → mask.getLsbD w = true → (s.wayMask d ctx).getLsbD w = false → (w, ctx) ∈ (t.die d).cleaning)
        ∧ let q := (s.ctx ctx).quota + 0x10 + 2 * d
          ((s.ctx ctx).live = true → t.rdM q 2 = mask.toNat)
            ∧ (NoShadow s q 2 → ∀ k a, (s.ctx ctx).live = false ∨ a < q ∨ q + 2 ≤ a → t.dieView k a = s.dieView k a))
  ∧ (∀ (s : State) (d way : Nat), (∃ x, (way, x) ∈ (s.die d).cleaning) → s.shadows = [] → (∀ p ∈ (s.die d).lines, p.2.way = way → s.lineHeld d p.1 = false) →
      Comes (.wayCleanComplete d way) s fun t => (∀ p ∈ (t.die d).lines, p.2.way ≠ way) ∧ ∀ x, (way, x) ∉ (t.die d).cleaning)
  ∧ (∀ (s : State) (d slice : Nat), s.sliceTokens d slice = false → slice ∉ (s.die d).gated → (∀ p ∈ (s.die d).served, sliceOf p.1 = slice → p.2 + 2600 ≤ s.now) →
      (∀ p ∈ s.misses, p.2.holder = d → sliceOf p.2.sector ≠ slice) → (∀ w ∈ (s.die d).pw, sliceOf w.sector ≠ slice) →
      Comes (.slicePowerGate d slice) s fun t => SameMem s t ∧ (t.die d).gated = (s.die d).gated ++ [slice])
  ∧ ∀ (s : State) (d slice : Nat), (∃ p ∈ s.misses, p.2.holder = d ∧ sliceOf p.2.sector = slice) →
      Comes (.sliceWake d slice) s fun t => SameMem s t ∧ ∀ x, x ∈ (t.die d).gated ↔ x ∈ (s.die d).gated ∧ x ≠ slice

namespace Sys2Proof.Claims

/-- R258: a workgroup whose next COLL every group has issued, with what the issuers did before performed and no reduction shadow open. -/
def CollDue (s : State) (c wg : Nat) (w : Workgroup) (x : CollIssue) (l : List CollIssue) : Prop :=
  s.wgOf c wg = some w ∧ w.colls.get [] w.collDone = x :: l ∧ (s.core c).halted = false ∧ s.shadows = []
    ∧ (∀ p ∈ (s.core c).groupsOf wg, w.collDone < p.2.collNext)
    ∧ ∀ y ∈ x :: l, s.valuesHeld y.uid y.upto = true ∧ s.writesPerformed y.uid c w.ctx .workgroup y.upto = true

/-- R258: the workgroup with its next COLL taken. -/
def collTaken (w : Workgroup) : Workgroup := { w with colls := w.colls.erase w.collDone, collDone := w.collDone + 1 }

/-- The member of a number, whose record names it. -/
def IsMember (s : State) (mem : Nat) (y : Member) : Prop := s.members.look mem = some y ∧ y.mem = mem

/-- R236, R237, R261, R265: a member with one issue, of a group that runs on a core, has ended: it is gone, its status is in the group's register, which
is no longer pending, and its arrival is made. -/
def MemberEnds (s t : State) (y : Member) (i : CollIssue) (g : Nat) (x : Group) (status : Word) : Prop :=
  t.members.look y.mem = none ∧ (t.core y.core).arrivals = (s.core y.core).arrivals ++ [⟨i.word, 1, 0, 0, i.uid, y.ctx, 0⟩]
    ∧ InGroup t y.core g fun G => SamePreds x G ∧ G.sat = x.sat ∧ Kept x { G with pend := x.pend } ∧ (∀ r, r ∈ G.pend ↔ r ∈ x.pend ∧ r ≠ i.d.toNat)
      ∧ Answers x G i.mask i.d.toNat status

/-- R237: the status of a member: cause, a bit for a late one, and where there is no cause a bit of its own and a count. -/
def memberStatus (s : State) (y : Member) (bit : Bool) (count : Nat) : Word :=
  BitVec.ofNat 32 (y.cause + (if y.bound ≠ 0 ∧ y.clk + y.bound < (s.die y.die).clk then 2 ^ 8 else 0)
    + if y.cause = 0 then (if bit then 2 ^ 9 else 0) + count * 2 ^ 10 else 0)

end Sys2Proof.Claims

/-- R237, R256 to R261, R396 to R404, R407 to R409: the events of collectives: a workgroup's COLL becomes a member, whose descriptor gives it its communicator, rank and
sequence number, or a cause; a member joins the entry of its key or opens one; joins that differ complete with 0xA1; a complete entry
starts with its command entries, or fails with 0xAD when an endpoint has no base die; a start notice begins a member's bound; a member's end writes its
result, gives its status and arrives; failed lanes, adders and hubs are noted; and a package's handshake is noted. (The model's choices: that a member that
fails arrives, with no tile written, log 54; the two crossings in the bound of a spanning collective, log 52; which number a member takes, log 117.) -/
def Obligations.CollectiveEvents : Prop :=
  (∀ (s : State) (c wg : Nat) (w : Workgroup) (x : CollIssue) (l : List CollIssue), CollDue s c wg w x l →
    let s1 := s.setWg c wg (collTaken w)
    (sameIssues (x :: l) = false → Comes (.collMemberAccept c wg) s fun t => SameMem s t ∧ t.wgOf c wg = some (collTaken w)
      ∧ ∃ y, IsMember t s.serial y ∧ y.stage = .ready ∧ y.cause = 0xA2 ∧ y.issues = x :: l ∧ y.core = c ∧ y.ctx = w.ctx)
    ∧ ∀ pas b cm seq s3, sameIssues (x :: l) = true →
        s1.readDesc (dieOf c) w.ctx ((x :: l).map fun i => i.uid) s.serial x.desc.toNat 64 = .ok pas b →
        let s2 := s1.touchRange w.ctx x.desc.toNat 64 reading
        (∀ k, collCause b (s2.commOf w.ctx (field b 0 2)) ((s.core c).tile x.tile) = some k → Comes (.collMemberAccept c wg) s fun t =>
          ∃ y, IsMember t s.serial y ∧ y.stage = .ready ∧ y.cause = k ∧ y.issues = x :: l ∧ y.core = c)
        ∧ (collCause b (s2.commOf w.ctx (field b 0 2)) ((s.core c).tile x.tile) = none → s2.commOf w.ctx (field b 0 2) = some cm →
            s2.takeSeq w.ctx cm (field b 0x10 2) = .inr (seq, s3) → Comes (.collMemberAccept c wg) s fun t =>
          ∃ y, IsMember t s.serial y ∧ y.stage = .checked ∧ y.issues = x :: l ∧ y.core = c ∧ y.die = dieOf c ∧ y.record = b ∧ y.comm = field b 0 2
            ∧ y.rank = field b 0x10 2 ∧ y.seq = seq ∧ y.n = cm.n ∧ y.tileOff = some ((s.core c).tileAt x.tile)))
  ∧ (∀ (s : State) (mem : Nat) (y : Member), IsMember s mem y → y.exchange = false → y.stage = .checked → s.meetsPost y = false →
    ((∀ z ∈ s.matches_, z.keyed y = true → z.started = true) → (s.matches_.filter fun z => z.hub = s.hubOf y.comm).length < 1024 →
      Comes (.collJoin mem) s fun t => SameMem s t ∧ t.members.look mem = some { y with stage := .joined }
        ∧ ∃ z, t.matches_ = s.matches_ ++ [z] ∧ z.keyed y = true ∧ z.hub = s.hubOf y.comm ∧ z.joins = [(y.rank, mem)] ∧ z.failed = false ∧ z.started = false
          ∧ z.need = (match s.commOf y.ctx y.comm with | some cm => cm.hi - cm.lo | none => y.n) ∧ (z.order ≠ none ↔ z.need = 1))
    ∧ ∀ z, s.matches_.find? (fun z => z.keyed y && !z.started) = some z → z.failed = false →
      (z.order = none → z.digest = y.record.take 16 → (∀ p ∈ z.joins, p.1 ≠ y.rank) → Comes (.collJoin mem) s fun t => SameMem s t
        ∧ t.members.look mem = some { y with stage := .joined }
        ∧ ∃ z', z' ∈ t.matches_ ∧ z'.joins = z.joins ++ [(y.rank, mem)] ∧ z'.failed = false ∧ z'.keyed y = true ∧ (z'.order ≠ none ↔ z.joins.length + 1 = z.need))
      ∧ (z.digest ≠ y.record.take 16 ∨ (∃ p ∈ z.joins, p.1 = y.rank) → Comes (.collJoin mem) s fun t => SameMem s t
        ∧ t.members.look mem = some { y with stage := .ready, cause := 0xA1 }
        ∧ ∀ p ∈ z.joins, ∀ o, p.2 ≠ mem → s.members.look p.2 = some o → t.members.look p.2 = some { o with stage := .ready, cause := 0xA1 }))
  ∧ (∀ (s : State) (hub : Nat) (x : Match), s.nextMatch hub = some x →
    (∀ dies, s.routesLost x = false → s.collDies x = some dies → (∀ b ∈ dies, s.occupied b < 16) →
      Comes (.collStart hub) s fun t => SameMem s t ∧ t.members = s.members ∧ { x with started := true, dies := dies } ∈ t.matches_)
    ∧ (s.routesLost x = true ∨ s.collDies x = none → Comes (.collStart hub) s fun t => SameMem s t ∧ x ∉ t.matches_
      ∧ ∀ p ∈ x.joins, ∀ y, s.members.look p.2 = some y → t.members.look p.2 = some { y with stage := .ready, cause := 0xAD }))
  ∧ (∀ (s : State) (mem : Nat) (y : Member) (x : Match), s.members.look mem = some y → s.matchOf mem = some x → x.started = true → y.stage = .joined →
      Comes (.startNotice mem) s fun t => SameMem s t
        ∧ t.members.look mem = some { y with stage := .started, clk := (s.die y.die).clk, bound := s.collBound x y })
  ∧ (∀ (s : State) (mem : Nat) (y : Member) (i : CollIssue) (g : Nat) (x : Group), IsMember s mem y → y.exchange = false → y.stage = .ready → y.issues = [i] →
      Lives s i.uid y.core g x → (∀ off j, y.cause = 0 → y.tileOff = some off → j < y.result.length → s.lsHome y.core y.ctx (off + j) = none) →
      Comes (.collMemberComplete mem) s fun t => (∀ d b, t.dieView d b = s.dieView d b)
        ∧ MemberEnds s t y i g x (memberStatus s y y.sat ((y.result.length + 1023) / 1024))
        ∧ (∀ k b, k ≠ y.core ∨ y.cause ≠ 0 ∨ y.tileOff = none → SMap.get 0 (t.core k).ls b = SMap.get 0 (s.core k).ls b)
        ∧ ∀ off b, y.cause = 0 → y.tileOff = some off → SMap.get 0 (t.core y.core).ls b =
            if off ≤ b ∧ b < off + y.result.length then y.result.getD (b - off) 0 else SMap.get 0 (s.core y.core).ls b)
  ∧ (∀ (s : State) (index lane : Nat), (Comes (.collLinkFail 0 index lane) s fun t => (index, lane) ∈ t.deadLanes)
      ∧ (Comes (.collLinkFail 1 index lane) s fun t => index ∈ t.deadAdders)
      ∧ Comes (.collLinkFail 2 index lane) s fun t => index ∈ t.deadHubs ∧ ∀ x ∈ t.matches_, x.hub ≠ index)
  ∧ ∀ (s : State) (comm seq pkg : Nat), Comes (.spanHandshake comm seq pkg) s fun t => (comm, seq, pkg) ∈ t.spanSeen ∧ t = { s with spanSeen := t.spanSeen }

namespace Sys2Proof.Claims

/-- A post set stands in its place. -/
def HasSet (s : State) (hub set : Nat) (p : PostSet) : Prop := s.postSet hub set = some p ∧ p.hub = hub ∧ p.set_ = set

/-- R413: a message of a kind is on its way to every member that has posted to a set. -/
def ToAll (t : State) (k : XKind) (p : PostSet) : Prop := ∀ x ∈ p.posts, ∃ m ∈ t.xmsgs, m.kind = k ∧ m.hub = p.hub ∧ m.set_ = p.set_ ∧ m.mem = x.mem

/-- R413: the calendar of a set has been issued. -/
def CalendarSent (s t : State) (p : PostSet) : Prop :=
  SameMem s t ∧ t.members = s.members ∧ t.postSet p.hub p.set_ = some { p with issued := some s.now } ∧ ToAll t .calendar p

/-- R413: the go of a set has been sent. -/
def GoSent (s t : State) (p : PostSet) : Prop :=
  SameMem s t ∧ t.members = s.members ∧ t.postSet p.hub p.set_ = some { p with go := true } ∧ ToAll t .go p

end Sys2Proof.Claims

/-- R237, R262 to R265, R410, R412 to R415: the events of exchanges: the record of a DPOST is read; its post opens a set; a complete set's calendar is issued by the first
Cartographer, or by the second after 10400 clk; a member keeps the first calendar and acknowledges it; with every acknowledgement the go is sent, by the second
2600 clk after its own issue, or 10400 clk after the first's; a go starts the member's counter; a phase moves its bytes; and the end of the exchange writes
what was left, received and placed into the record, gives the status and arrives. (The model's choices: that a member that fails arrives, log 54, and from
when an exchange counts as late, log 56.) -/
def Obligations.ExchangeEvents : Prop :=
  (∀ (s : State) (mem : Nat) (y : Member), IsMember s mem y → y.exchange = true → s.shadows = [] →
    (y.stage = .accepted →
      (∀ k, s.readDesc y.die y.ctx (y.issues.map fun i => i.uid) mem y.desc.toNat 256 = .bad k → Comes (.dpostRecordRead mem) s fun t =>
        SameMem s t ∧ t.members.look mem = some { y with stage := .ready, cause := 0x47 + 8 * k })
      ∧ ∀ pas b, s.readDesc y.die y.ctx (y.issues.map fun i => i.uid) mem y.desc.toNat 256 = .ok pas b →
        let s1 := s.touchRange y.ctx y.desc.toNat 256 reading
        (∀ k, exchangeCause b (s1.commOf y.ctx (field b 0 2)) = some k → Comes (.dpostRecordRead mem) s fun t =>
          t.members.look mem = some { y with stage := .ready, cause := k })
        ∧ ∀ cm seq s2, exchangeCause b (s1.commOf y.ctx (field b 0 2)) = none → s1.commOf y.ctx (field b 0 2) = some cm →
          s1.takeSeq y.ctx cm (xRank b) = .inr (seq, s2) → Comes (.dpostRecordRead mem) s fun t => ∃ y', IsMember t mem y' ∧ y'.stage = .checked
            ∧ y'.record = b ∧ y'.comm = field b 0 2 ∧ y'.rank = xRank b ∧ y'.seq = seq ∧ y'.n = cm.n
            ∧ ∀ hub, hub < 2 → hub ∉ s2.deadHubs →
                ⟨hub, mem, y.ctx, field b 0 2, seq, cm.n, xRank b, (List.range cm.n).map fun j => xPost b j, xCap b⟩ ∈ t.postQ)
    ∧ (∀ hub q, y.stage = .checked → hub < 2 → hub ∉ s.deadHubs → s.postOf hub mem = some q → (∀ p ∈ s.postSets.vals, p.keyed q = true → p.hub ≠ hub) →
        (s.postSets.filter fun p => p.2.hub = hub).length < 64 → (∀ x ∈ s.matches_, x.hasKey q.ctx q.comm q.seq = false) → q.n ≠ 1 →
        Comes (.exchangePost hub mem) s fun t => SameMem s t ∧ t.members.look mem = some { y with stage := .joined } ∧ q ∉ t.postQ
          ∧ ∃ p, HasSet t hub p.set_ p ∧ p.keyed q = true ∧ p.n = q.n ∧ p.failed = 0 ∧ p.completed = none ∧ p.issued = none
            ∧ p.posts = [⟨q.rank, mem, q.row, q.recvcap⟩])
    ∧ (∀ phase q, y.stage = .running → y.phases[phase]? = some q → phase ∉ y.begun → y.g0 + 8 * q.start ≤ (s.die y.die).clk →
        (∀ k z, s.members.look k = some z → z.mem = k) →
        let j := q.dest.getD y.rank 0
        let off := min (y.toSend j) (4096 * y.slotsBefore phase j)
        let n := min (y.toSend j) (4096 * (y.slotsBefore phase j + q.dur)) - off
        (n = 0 → Comes (.exchangePhaseStart mem phase) s fun t => SameMem s t ∧ t.members.look mem = some { y with begun := y.begun ++ [phase] })
        ∧ ∀ z l, n ≠ 0 → s.partner y j = some z → z.unready = false → s.phaseBytes y z j off n = .ok l → Comes (.exchangePhaseStart mem phase) s fun t =>
            (∀ a b, lastByte l a = some b → t.merged a = b)
              ∧ ∃ y', t.members.look mem = some y' ∧ y'.begun = y.begun ++ [phase] ∧ SMap.get 0 y'.moved j = SMap.get 0 y.moved j + n)
    ∧ (∀ i g x, y.stage = .ready → y.issues = [i] → Lives s i.uid y.core g x → Comes (.exchangeComplete mem) s fun t =>
        SameMem s t ∧ MemberEnds s t y i g x (memberStatus s y false 0))
    ∧ (∀ a, y.stage = .running → s.exchangeOver y = true → s.rangeKinds y.ctx (y.desc.toNat + 0x80) 96 writing = [] →
        s.rangePas y.ctx (y.desc.toNat + 0x80) 96 writing = fromN a 96 → Comes (.exchangeComplete mem) s fun t => t.members.look mem = none
          ∧ ∀ j, j < 8 → t.rdM (a + 4 * j) 4 = y.resid j % 2 ^ 32 ∧ t.rdM (a + 0x20 + 4 * j) 4 = SMap.get 0 y.rcvd j % 2 ^ 32
            ∧ t.rdM (a + 0x40 + 4 * j) 4 = y.roff j % 2 ^ 32))
  ∧ (∀ (s : State) (set : Nat) (p : PostSet), HasSet s 0 set p → 0 ∉ s.deadHubs → p.completed ≠ none → p.issued = none → p.seenIssue = none →
      Comes (.calendarIssue 0 set) s fun t => CalendarSent s t p ∧ (1 ∉ s.deadHubs → ∃ m ∈ t.xmsgs, m.kind = .issueNote ∧ m.hub = 1 ∧ m.set_ = set))
  ∧ (∀ (s : State) (set : Nat) (p : PostSet), HasSet s 1 set p → 1 ∉ s.deadHubs →
      (∀ n, p.completed = some n → n + 10400 ≤ s.now → p.issued = none → p.seenIssue = none → Comes (.standbyIssueTimeout set) s fun t => CalendarSent s t p)
      ∧ (∀ n, p.issued = some n → n + 2600 ≤ s.now → p.seenIssue = none → p.go = false → p.failed = 0 → p.acked = true →
          Comes (.standbyGoTimeout set) s fun t => GoSent s t p)
      ∧ ∀ n, p.seenIssue = some n → n + 10400 ≤ s.now → p.seenGo = false → p.go = false → p.failed = 0 →
          Comes (.standbyNogoTimeout set) s fun t => GoSent s t p)
  ∧ (∀ (s : State) (msg : Nat) (x : XMsg) (y : Member) (p : PostSet), s.xmsg msg .calendar = some x → IsMember s x.mem y → s.postSet x.hub x.set_ = some p → y.stage = .joined →
      (p.failed ≠ 0 → Comes (.calendarReceive msg) s fun t => SameMem s t ∧ t.members.look x.mem = some { y with stage := .ready, cause := p.failed })
      ∧ (p.failed = 0 → s.endpointDies y.die ≠ [] → (∀ b ∈ s.endpointDies y.die, s.occupied b < 16) → Comes (.calendarReceive msg) s fun t => SameMem s t
          ∧ (∃ y', IsMember t x.mem y' ∧ y'.stage = .started ∧ y'.phases = p.calendar ∧ y'.total = p.total ∧ y'.entries = s.endpointDies y.die)
          ∧ (x.hub ∉ s.deadHubs → ∃ m ∈ t.xmsgs, m.kind = .ack ∧ m.hub = x.hub ∧ m.set_ = x.set_ ∧ m.mem = x.mem) ∧ ∀ m ∈ t.xmsgs, m.kind = .calendar → m.msg ≠ msg))
  ∧ (∀ (s : State) (msg : Nat) (x : XMsg) (p : PostSet), s.xmsg msg .ack = some x → HasSet s x.hub x.set_ p → x.mem ∉ p.acks →
      let q : PostSet := { p with acks := p.acks ++ [x.mem] }
      (q.acked = false ∨ x.hub ≠ 0 ∨ p.go = true → Comes (.calendarAck msg) s fun t => SameMem s t ∧ t.postSet x.hub x.set_ = some q)
      ∧ (q.acked = true → x.hub = 0 → p.go = false → Comes (.calendarAck msg) s fun t => GoSent s t q))
  ∧ (∀ (s : State) (msg : Nat) (x : XMsg) (y : Member), s.xmsg msg .go = some x → IsMember s x.mem y → y.stage = .started →
      Comes (.goMessage msg) s fun t => SameMem s t ∧ (∀ m ∈ t.xmsgs, m.msg ≠ msg)
        ∧ t.members.look x.mem = some { y with stage := .running, g0 := (s.die y.die).clk, clk := (s.die y.die).clk, bound := y.exchangeBound })
  ∧ ∀ (s : State) (hub set : Nat) (p : PostSet), HasSet s hub set p →
      ((∃ m ∈ s.xmsgs, m.kind = .issueNote ∧ m.hub = hub ∧ m.set_ = set) → Comes (.issueNotice hub set) s fun t => SameMem s t
        ∧ t.postSet hub set = some { p with seenIssue := some s.now })
      ∧ ((∃ m ∈ s.xmsgs, m.kind = .goNote ∧ m.hub = hub ∧ m.set_ = set) → Comes (.goNotice hub set) s fun t => SameMem s t
        ∧ t.postSet hub set = some { p with seenGo := true })

namespace Sys2Proof.Claims

/-- A message of a kind about a sector is on its way from a holder to another, and a test holds of it. -/
def Sends (t : State) (k : MsgKind) (sec src dst : Nat) (P : Msg → Prop) : Prop :=
  ∃ m ∈ t.msgs, m.kind = k ∧ m.sector = sec ∧ m.src = src ∧ m.dst = dst ∧ P m

/-- R305, R308: a holder has given tokens of a sector to another. -/
def Gives (s t : State) (h dst sec n : Nat) (own data : Bool) : Prop :=
  (t.tok h sec).tokens = (s.tok h sec).tokens - n ∧ ((t.tok h sec).owner = true ↔ (s.tok h sec).owner = true ∧ own = false)
    ∧ Sends t (if own || data then .data else .tok) sec h dst fun m => m.tokens = n ∧ m.owner = own ∧ m.serial = (s.tok h sec).serial

/-- R312: whether an activation or a power gate makes an L2 refuse a request. -/
def Refuses (s : State) (m : Msg) : Prop :=
  (s.tok m.dst m.sector).tokens = 0 ∨ s.gatedAt m.dst m.sector = true
    ∨ ∃ a, s.acts.look (holderKey m.dst m.sector) = some a ∧ a.requester ≠ m.src

/-- R312, R322: whether the home refuses a request: it has no token, its residue's parity fails, or another requester is activated. -/
def HomeRefuses (s : State) (m : Msg) : Prop :=
  (s.tok homeId m.sector).tokens = 0 ∨ (s.residues.get {} m.sector).parityOk = false
    ∨ ∃ a, (s.persistOf m.sector).active = some a ∧ a ≠ m.src

/-- R312: the holder refuses: a NACK with the attempt's number, and its tokens as before. -/
def Nacks (s t : State) (m : Msg) : Prop :=
  t.tok m.dst m.sector = s.tok m.dst m.sector ∧ Sends t .nack m.sector m.dst m.src fun x => x.attempt = m.attempt

/-- R308: a message of a kind that has reached an L2, with no write of its die to the sector pending there and no reduction shadow open. -/
def AtL2 (s : State) (msg : Nat) (k : MsgKind) (m : Msg) : Prop :=
  s.msgOf msg k = some m ∧ m.dst < 8 ∧ s.shadows = [] ∧ ∀ w ∈ (s.die m.dst).pw, w.sector ≠ m.sector

/-- R318: an ACT goes to every holder that is not isolated, the home left out. -/
def ToHolders (s t : State) (k : MsgKind) (sec : Nat) (P : Msg → Prop) : Prop :=
  ∀ h ∈ holdersOf sec, h ≠ homeId → h ∉ s.regs.holderMask → Sends t k sec (homeOf sec) h P

end Sys2Proof.Claims

/-- R305 to R313, R315: the coherence messages about reads and writes: the answer table of GETS and GETX at an L2; the home answers once it has read the sector; a
refusal is recorded for its attempt; TOK, DATA and WB bring tokens with the sector's serial, and stale ones are dropped; a message grows old and is dropped; and a miss
past its deadline asks every holder, then makes a persistent request, or is released while its holder has six at the table. (The model's choices: a
released miss waits as attempt 0 and sends nothing until it is allocated again, log 78; a batch is not formed while a request of its sector is on its
way, log 98.) -/
def Obligations.CoherenceRequests : Prop :=
  (∀ (s : State) (msg : Nat) (m : Msg), AtL2 s msg .gets m → m.write = false →
    (Refuses s m ∨ (s.tok m.dst m.sector).owner = false → Comes (.getsMessage msg) s fun t => SameMem s t ∧ Nacks s t m)
    ∧ (¬ Refuses s m → (s.tok m.dst m.sector).owner = true → Comes (.getsMessage msg) s fun t => SameMem s t
        ∧ Gives s t m.dst m.src m.sector 1 (decide ((s.tok m.dst m.sector).tokens < 2)) true))
  ∧ (∀ (s : State) (msg : Nat) (m : Msg), AtL2 s msg .getx m → m.write = true →
    (Refuses s m → Comes (.getx msg) s fun t => SameMem s t ∧ Nacks s t m)
    ∧ (¬ Refuses s m → Comes (.getx msg) s fun t => SameMem s t
        ∧ Gives s t m.dst m.src m.sector (s.tok m.dst m.sector).tokens (s.tok m.dst m.sector).owner (s.tok m.dst m.sector).owner))
  ∧ (∀ e ∈ [(MsgKind.gets, (Instr.getsMessage : Nat → Instr), false), (.getx, .getx, true)], ∀ (s : State) (msg : Nat) (m : Msg),
      s.msgOf msg e.1 = some m → m.write = e.2.2 → m.dst = homeId →
    (s.homeReads.get false m.sector = false → Comes (e.2.1 msg) s fun t => SameMem s t ∧ (t.homeReads.look m.sector).isSome = true
        ∧ t.homeAnswers = s.homeAnswers ++ [m])
    ∧ (s.homeReads.get false m.sector = true → s.shadows = [] →
      (HomeRefuses s m ∨ (e.2.2 = false ∧ (s.tok homeId m.sector).owner = false) → Comes (e.2.1 msg) s fun t => SameMem s t ∧ Nacks s t m)
      ∧ (¬ HomeRefuses s m → e.2.2 = true → Comes (e.2.1 msg) s fun t => SameMem s t
          ∧ Gives s t homeId m.src m.sector (s.tok homeId m.sector).tokens (s.tok homeId m.sector).owner (s.tok homeId m.sector).owner)
      ∧ (¬ HomeRefuses s m → e.2.2 = false → (s.tok homeId m.sector).owner = true → Comes (e.2.1 msg) s fun t => SameMem s t
          ∧ Gives s t homeId m.src m.sector 1 (decide ((s.tok homeId m.sector).tokens < 2)) true)))
  ∧ (∀ (s : State) (sec : Nat), s.homeReads.look sec = some false → Comes (.homeSectorRead sec) s fun t =>
      t.homeReads.look sec = some true ∧ ∀ m ∈ t.homeAnswers, m.sector ≠ sec)
  ∧ (∀ (s : State) (msg id : Nat) (m : Msg) (x : Miss), s.msgOf msg .nack = some m → s.missOf m.dst m.sector = some (id, x) → x.attempt = m.attempt →
      Comes (.nack msg) s fun t => SameMem s t ∧ t.misses.look id = some { x with refused := insertAsc m.src x.refused })
  ∧ (∀ e ∈ [(MsgKind.tok, (Instr.tok : Nat → Instr)), (.data, .data), (.wb, .wb)], ∀ (s : State) (msg : Nat) (m : Msg), s.msgOf msg e.1 = some m →
      let x := s.tok m.dst m.sector
      (m.dst = homeId → (s.persistOf m.sector).active = none → s.recreates.look m.sector = none → Comes (e.2 msg) s fun t => SameMem s t ∧ (∀ y ∈ t.msgs, y.msg ≠ msg)
        ∧ (m.serial ≠ x.serial → t.tok homeId m.sector = x)
        ∧ (m.serial = x.serial → (t.tok homeId m.sector).tokens = x.tokens + m.tokens ∧ (t.tok homeId m.sector).owner = (x.owner || m.owner)))
      ∧ (m.dst < 8 → s.gatedAt m.dst m.sector = false → s.ops = [] → (s.die m.dst).pw = [] → s.shadows = [] → s.acts.look (holderKey m.dst m.sector) = none →
          (∃ p ∈ (s.die m.dst).lines, p.1 = m.sector / 4) → Comes (e.2 msg) s fun t => SameMem s t ∧ (∀ y ∈ t.msgs, y.msg ≠ msg)
        ∧ t.tok m.dst m.sector = if m.serial = x.serial then
            { x with tokens := x.tokens + m.tokens, owner := x.owner || m.owner, valid := x.valid || decide (e.1 ≠ .tok), dirty := x.dirty || m.dirty } else x))
  ∧ (∀ (s : State) (msg : Nat), ((∀ m ∈ s.msgs, m.msg = msg → s.now ≤ m.born + 2600) → exec (.messageExpire msg) s = .next s)
      ∧ ∀ m ∈ s.msgs, m.msg = msg → m.born + 2600 < s.now → (∀ y ∈ s.msgs, y.msg = msg → y = m) →
        (m.kind ≠ .preq → m.kind ≠ .data ∨ s.recreates.look m.sector = none → Comes (.messageExpire msg) s fun t => SameMem s t
          ∧ ∀ y, y ∈ t.msgs ↔ y ∈ s.msgs ∧ y.msg ≠ msg)
        ∧ (m.kind = .preq → (∀ y ∈ s.msgs, y.kind = .preq → y.sector = m.sector → y = m) → s.shadows = [] →
          (s.persistOf m.sector).batch = [] → (s.persistOf m.sector).recorded ≠ [] → Comes (.messageExpire msg) s fun t => SameMem s t
            ∧ m ∉ t.msgs ∧ (t.persistOf m.sector).recorded = [] ∧ (t.persistOf m.sector).active ≠ none))
  ∧ ∀ (s : State) (id : Nat) (m : Miss), s.misses.look id = some m → s.needMet m = false → m.persistent = false → m.started + 1300 ≤ s.now →
      (m.attempt = 1 → Comes (.attemptDeadline id) s fun t => SameMem s t
        ∧ t.misses.look id = some { m with attempt := m.attempt + 1, started := s.now, refused := [] }
        ∧ ∀ h ∈ holdersOf m.sector, h ≠ m.holder → Sends t (if m.write then .getx else .gets) m.sector m.holder h fun x => x.attempt = m.attempt + 1)
      ∧ (2 ≤ m.attempt → m.holder ∉ (s.persistOf m.sector).served → m.holder ∉ (s.persistOf m.sector).batch →
          (∀ r ∈ (s.persistOf m.sector).recorded, r.1 ≠ m.holder) →
          (s.preqsOf m.holder (tableOf m.sector) < 6 → Comes (.attemptDeadline id) s fun t =>
            SameMem s t ∧ t.misses.look id = some { m with persistent := true } ∧ Sends t .preq m.sector m.holder (homeOf m.sector) fun x => x.write = m.write)
          ∧ (6 ≤ s.preqsOf m.holder (tableOf m.sector) → Comes (.attemptDeadline id) s fun t =>
            SameMem s t ∧ t.misses.look id = some { m with attempt := 0 } ∧ t.msgs = s.msgs))

/-- R316 to R323: persistent requests and recreations: a request is recorded and, with none running or on its way, forms a batch whose first requester is activated; an activated
requester's DONE activates the next, or ends the batch; a holder under an ACT gives up its tokens; a DEACT of its position ends it, and any other is remembered for 2600
clk; and a sector whose activation has stood for 26000 clk is recreated: every holder gives up its tokens under a new serial, with its dirty owned data, and the home has all 16 once they have answered,
the sector poisoned where its owned data is lost. (The model's choices: a batch waits for requests on their way, log 98; a batch position starts at 0,
log 113.) -/
def Obligations.PersistentRequestsAndRecreation : Prop :=
  (∀ (s : State) (msg : Nat) (m : Msg), s.msgOf msg .preq = some m → let p := s.persistOf m.sector
    (p.batch ≠ [] → (∀ r ∈ p.recorded, r.1 ≠ m.src) → Comes (.preq msg) s fun t => SameMem s t
      ∧ t.persistOf m.sector = { p with recorded := p.recorded ++ [(m.src, m.write)] })
    ∧ (p.batch = [] → p.recorded = [] → (∀ y ∈ s.msgs, y.kind = .preq → y.sector = m.sector → y.msg = msg) → s.shadows = [] → Comes (.preq msg) s fun t => SameMem s t
      ∧ t.persistOf m.sector = { recorded := [], batch := [m.src], served := [], active := some m.src, pos := (p.pos + 1) % 256, actClk := s.now }
      ∧ ToHolders s t .act m.sector fun x => x.requester = m.src ∧ x.pos = (p.pos + 1) % 256 ∧ x.next = none))
  ∧ (∀ (s : State) (msg : Nat) (m : Msg), s.msgOf msg .done = some m → let p := s.persistOf m.sector
    p.active = some m.src → p.pos = m.pos → s.shadows = [] →
    (∀ a b rest, p.batch = a :: b :: rest → Comes (.done msg) s fun t => SameMem s t
      ∧ t.persistOf m.sector = { p with batch := b :: rest, served := p.served ++ [m.src], active := some b, pos := (p.pos + 1) % 256, actClk := s.now }
      ∧ ToHolders s t .act m.sector fun x => x.requester = b ∧ x.pos = (p.pos + 1) % 256 ∧ x.next = rest.head?)
    ∧ ∀ a, p.batch = [a] → p.recorded = [] → Comes (.done msg) s fun t => SameMem s t
      ∧ t.persistOf m.sector = { p with batch := [], served := p.served ++ [m.src], active := none }
      ∧ ToHolders s t .deact m.sector fun x => x.pos = p.pos)
  ∧ (∀ (s : State) (msg : Nat) (m : Msg), AtL2 s msg .act m → m.requester ≠ m.dst →
      (∀ d ∈ s.deacts, d.1 = holderKey m.dst m.sector → d.2.1 ≠ m.pos) →
      (∀ a, s.acts.look (holderKey m.dst m.sector) = some a → laterPos a.pos m.pos = false) → Comes (.act msg) s fun t => SameMem s t
        ∧ t.acts.look (holderKey m.dst m.sector) = some ⟨m.pos, m.requester, m.next, false⟩ ∧ (t.tok m.dst m.sector).tokens = 0
        ∧ ((s.tok m.dst m.sector).tokens ≠ 0 →
            Gives s t m.dst m.requester m.sector (s.tok m.dst m.sector).tokens (s.tok m.dst m.sector).owner (s.tok m.dst m.sector).owner))
  ∧ (∀ (s : State) (msg : Nat) (m : Msg), s.msgOf msg .deact = some m → let key := holderKey m.dst m.sector
      (∀ a, s.acts.look key = some a → a.pos = m.pos → Comes (.deact msg) s fun t => SameMem s t ∧ t.acts.look key = none)
      ∧ (∀ a, s.acts.look key = some a → a.pos ≠ m.pos → Comes (.deact msg) s fun t =>
          SameMem s t ∧ t.acts = s.acts ∧ t.deacts = s.deacts ++ [(key, m.pos, s.now)])
      ∧ (s.acts.look key = none → Comes (.deact msg) s fun t => SameMem s t ∧ t.deacts = s.deacts ++ [(key, m.pos, s.now)]))
  ∧ (∀ (s : State) (h sec : Nat), Comes (.deactMemoryExpire h sec) s fun t => SameMem s t
      ∧ ∀ d, d ∈ t.deacts ↔ d ∈ s.deacts ∧ ¬ (d.1 = holderKey h sec ∧ d.2.2 + 2600 ≤ s.now))
  ∧ (∀ (s : State) (sec : Nat), sec < 2 ^ 42 → s.recreateHeld sec = false →
      let New (t : State) : Prop := SameMem s t ∧ (t.tok homeId sec).tokens = 0 ∧ (t.tok homeId sec).serial = ((s.tok homeId sec).serial + 1) % 16
        ∧ (t.recreates.look sec).isSome = true
        ∧ ∀ h ∈ holdersOf sec, h ≠ homeId → h ∉ s.regs.holderMask → Sends t .recr sec homeId h fun x => x.serial = ((s.tok homeId sec).serial + 1) % 16
      (∀ a, (s.persistOf sec).active = some a → (s.persistOf sec).actClk + 26000 ≤ s.now → Comes (.recreateTimeout sec) s New)
      ∧ (sec ∈ s.recrHeld → Comes (.recreateDeferred sec) s New))
  ∧ (∀ (s : State) (msg : Nat) (m : Msg), AtL2 s msg .recr m → m.sector < 2 ^ 42 → let x := s.tok m.dst m.sector
      Comes (.recr msg) s fun t => SameMem s t ∧ t.tok m.dst m.sector = { serial := m.serial } ∧ t.acts.look (holderKey m.dst m.sector) = none
        ∧ Sends t .rack m.sector m.dst homeId (fun y => y.owner = (x.owner && x.valid && x.dirty) ∧ y.serial = x.serial)
        ∧ (x.owner = true → x.valid = true → x.dirty = true → Sends t .data m.sector m.dst homeId fun y => y.owner = true ∧ y.serial = m.serial))
  ∧ ∀ (s : State) (msg : Nat) (m : Msg) (r : Recreate), s.msgOf msg .rack = some m → s.recreates.look m.sector = some r →
      let left := r.awaited.filter fun h => h ≠ m.src
      (left ≠ [] ∨ (r.gotOwner = false ∧ (r.due = true ∨ m.owner = true)) → Comes (.rack msg) s fun t => SameMem s t
          ∧ t.recreates.look m.sector = some { r with awaited := left, old := r.old ++ [m.serial], due := r.due || m.owner })
      ∧ (left = [] → r.gotOwner = false → r.due = false → m.owner = false → r.parity = false → (s.persistOf m.sector).batch = [] →
          (∀ p ∈ s.misses, p.2.sector ≠ m.sector) → Comes (.rack msg) s fun t => SameMem s t ∧ m.sector ∈ t.poisoned
          ∧ t.recreates.look m.sector = none ∧ (let h := t.tok (homeOf m.sector) m.sector; h.tokens = 16 ∧ h.owner = true ∧ h.serial = r.serial))
      ∧ (left = [] → r.gotOwner = true → r.parity = false → (s.persistOf m.sector).batch = [] → Comes (.rack msg) s fun t => SameMem s t
          ∧ t.recreates.look m.sector = none ∧ (let h := t.tok (homeOf m.sector) m.sector; h.tokens = 16 ∧ h.owner = true ∧ h.serial = r.serial))

namespace Sys2Proof.Claims

/-- A sector of device memory with no host read, recall or missing entry in the agent's way. -/
def HostFree (s : State) (sec : Nat) : Prop := s.hostReads.look sec = none ∧ s.hostWrites.look sec = none ∧ ∀ p ∈ s.recalls, p.1 ≠ sec

/-- The bytes of a sector. -/
def SectorHolds (t : State) (sec : Nat) (bytes : List Byte) : Prop := ∀ i, i < 64 → t.merged (64 * sec + i) = bytes.getD i 0

end Sys2Proof.Claims

/-- R326 to R331, R436, R438, R439: the host port agent and the windows: MEMRD takes what the host asks for, or misses; MEMWR sends the data home, or collects the tokens first; the host's answer to a
back-invalidate lets a held message go on; a snoop moves the host's line or recalls tokens; a grant sets it; PW_REGISTER checks and opens a window, PW_UNREGISTER
closes it once its drains are done; and the loss of the link, or of its last module, takes it down. (The model's choices: a host write whose agent lacks
tokens starts a miss and is held until they have come, log 42; the agent's own part of an activation, log 78.) -/
def Obligations.HostAgentAndWindows : Prop :=
  (∀ (s : State) (sec mval : Nat), sec < 2 ^ 42 → HostFree s sec → (s.hostLines.filter fun p => !isHostSec p.1).length < 2 ^ 20 → let x := s.tok agentId sec
    (mval = 0 → x.canWrite = true → Comes (.hostMemrd sec mval) s fun t => SameMem s t ∧ t.hostLines.get 0 sec = 2 ∧ t.hostReads.look sec = none)
    ∧ (mval = 1 → x.canRead = true → x.owner = false → Comes (.hostMemrd sec mval) s fun t => SameMem s t ∧ t.hostLines.get 0 sec = 1
        ∧ t.hostReads.look sec = none)
    ∧ (mval = 2 → x.canRead = true → s.shadows = [] → Comes (.hostMemrd sec mval) s fun t => SameMem s t ∧ (t.tok agentId sec).tokens = 0 ∧ t.hostReads.look sec = none)
    ∧ (mval ≤ 2 → x.canRead = false ∨ (mval = 0 ∧ x.canWrite = false) → Comes (.hostMemrd sec mval) s fun t => SameMem s t
        ∧ t.hostReads.look sec = some mval ∧ t.missOf agentId sec ≠ none))
  ∧ (∀ (s : State) (sec : Nat) (bytes : List Byte), sec < 2 ^ 42 → bytes.length = 64 →
    ((s.tok agentId sec).canWrite = true → s.agentActs sec = false → Comes (.hostMemwr sec bytes) s fun t => SectorHolds t sec bytes
      ∧ (∀ a, a / 64 ≠ sec → t.merged a = s.merged a) ∧ (t.tok agentId sec).tokens = 0 ∧ t.hostLines.get 0 sec = 0
      ∧ Sends t .wb sec agentId homeId fun m => m.tokens = 16 ∧ m.owner = true)
    ∧ ((s.tok agentId sec).canWrite = false → Comes (.hostMemwr sec bytes) s fun t => SameMem s t ∧ t.missOf agentId sec ≠ none
      ∧ t.hostWrites.look sec = some bytes))
  ∧ (∀ (s : State) (sec : Nat) (bytes : List Byte) (m : Msg), sec < 2 ^ 42 → s.shadows = [] → (∀ x ∈ s.agentAnswers, x.dst = agentId) →
    ((s.agentAnswers.filter fun x => x.sector = sec).find? (fun x => x.kind = .gets) = some m →
      (s.tok agentId sec).owner = true → 2 ≤ (s.tok agentId sec).tokens → Comes (.hostBiResponse sec 0 bytes) s fun t =>
      t.hostLines.get 0 sec = 1 ∧ Sends t .data sec agentId m.src (fun x => x.tokens = 1) ∧ (bytes.length = 64 → SectorHolds t sec bytes))
    ∧ ((s.agentAnswers.filter fun x => x.sector = sec) = [m] → m.kind = .binv → Comes (.hostBiResponse sec 1 bytes) s fun t =>
      t.hostLines.get 0 sec = 0 ∧ (t.tok agentId sec).tokens = 0 ∧ (bytes.length = 64 → SectorHolds t sec bytes) ∧ ∀ x ∈ t.agentAnswers, x.sector ≠ sec))
  ∧ (∀ (s : State) (msg : Nat) (m : Msg), s.msgOf msg .binv = some m →
    (s.needsRecall m = true → Comes (.binv msg) s fun t => SameMem s t ∧ t.agentAnswers = s.agentAnswers ++ [{ m with born := s.now }])
    ∧ (s.needsRecall m = false → s.shadows = [] → Comes (.binv msg) s fun t => SameMem s t ∧ (t.tok agentId m.sector).tokens = 0))
  ∧ (∀ (s : State) (sec inval : Nat), 2 ^ 42 ≤ sec → s.hostLines.get 0 sec ≠ 0 → (∀ p ∈ s.recalls, p.1 ≠ sec) →
    ((s.tok agentId sec).tokens = 16 → s.shadows = [] → Comes (.hostSnoop sec inval) s fun t => SameMem s t
      ∧ t.hostLines.get 0 sec = if inval = 0 then 1 else 0)
    ∧ ((s.tok agentId sec).tokens ≠ 16 → inval ≠ 0 ∨ s.hostLines.get 0 sec ≠ 1 → Comes (.hostSnoop sec inval) s fun t => SameMem s t
      ∧ (sec, decide (inval ≠ 0)) ∈ t.recalls))
  ∧ (∀ (s : State) (sec own : Nat) (bytes : List Byte), 2 ^ 42 ≤ sec → HostFree s sec → (∃ m ∈ s.agentAnswers, m.sector = sec) → s.hostLines.get 0 sec < 2 →
      (∀ x ∈ s.agentAnswers, x.dst = agentId) → s.ops = [] → s.shadows = [] → Comes (.cxlCacheResponse sec own bytes) s fun t => t.hostLines.get 0 sec = (if own = 0 then 1 else 2)
        ∧ (s.hostLines.get 0 sec = 0 → bytes.length = 64 → SectorHolds t sec bytes) ∧ ∀ a, a / 64 ≠ sec → t.merged a = s.merged a)
  ∧ (∀ (s : State) (w : Nat) (val : BitVec 32), let x := s.window w
    (x.en = false → x.busy = false → s.windowFault x (val.toNat % 64) = 0 → Comes (.pwRegister w val) s fun t => SameMem s t
      ∧ t.window w = { x with ctx := val.toNat % 64, en := true, result := 0, staged := [], drains := [] })
    ∧ (x.en = false → x.busy = false → s.windowFault x (val.toNat % 64) ≠ 0 → Comes (.pwRegister w val) s fun t => SameMem s t
      ∧ t.window w = { x with ctx := val.toNat % 64, result := s.windowFault x (val.toNat % 64) })
    ∧ (x.en = true → x.busy = false → Comes (.pwUnregister w val) s fun t => SameMem s t
      ∧ t.window w = { x with en := false, busy := true, result := 0 })
    ∧ (x.busy = true → x.drains = [] → Comes (.pwUnregisterComplete w) s fun t => SameMem s t ∧ t.window w = { x with busy := false, staged := [] }))
  ∧ ∀ s : State, s.regs.hostUp = true → (Comes .hostLinkLost s fun t => t.regs.hostUp = false)
      ∧ ∀ n, let left := s.regs.ucie.filter fun m => m ≠ n
        (left ≠ [] → Comes (.ucieModuleFail n) s fun t => SameMem s t ∧ t.regs.ucie = left ∧ t.regs.hostUp = true)
        ∧ (left = [] → Comes (.ucieModuleFail n) s fun t => t.regs.hostUp = false)

namespace Sys2Proof.Claims

/-- The launch queue of a context and class. -/
def Queued (s : State) (c k : Nat) : LaunchQueue := (s.ctx c).queue k

/-- R372: the first stage of a placement that still has steps to do. -/
def stageDue (s : State) (p : Placing) : Option Nat := ([0, 1, 2, 3].filter fun i => decide (p.stage ≤ i)).find? fun i => !(s.placeSteps p i).isEmpty

/-- R371: the state in which the status of a launch is written. -/
def statusState (s : State) (l : Launch) : State := s.touchRange l.ctx l.record.statva.toNat 8 writing

end Sys2Proof.Claims

/-- R365 to R373, R378 to R380: launches: the queue registers; a record that can be read is taken and, if no check fails, admitted; a dispatch makes a launch of the consumer that its queue names;
a launch that is over gives its status and frees those that waited for it; a placement asks for the steps that it needs and then starts its gang; a quantum ends; and
shrink requests are raised and, after 2600 clk, withdrawn. (The model's choices: a placement's steps are put on the agenda with GANG_PLACE after them,
logs 60 and 1; images that go to another die wait there for what that die has to merge, log 112.) -/
def Obligations.LaunchesAndPlacement : Prop :=
  (∀ (s : State) (c k : Nat) (val : BitVec 32) (base : BitVec 64), let q := Queued s c k
    (Comes (.lqTailWrite c k val) s fun t => SameMem s t ∧ Queued t c k = { q with tail := val })
    ∧ (Comes (.lqBaseWrite c k base) s fun t => SameMem s t ∧ Queued t c k = { q with base := base, err := q.err || decide (q.head ≠ q.tail ∧ q.base ≠ base) })
    ∧ (4 ≤ val.toNat % 16 → val.toNat % 16 ≤ 12 → Comes (.lqSizeWrite c k val) s fun t => SameMem s t
        ∧ Queued t c k = { q with size := val.toNat % 16, err := q.err || decide (q.head ≠ q.tail ∧ q.size ≠ val.toNat % 16) })
    ∧ (val.toNat % 16 < 4 ∨ 12 < val.toNat % 16 → exec (.lqSizeWrite c k val) s = .next s))
  ∧ (∀ (s : State) (c k : Nat), s.nextQueue = some (c * 4 + k) → s.badSectors = [] → s.badSram = [] → s.poisoned = [] → s.shadows = [] →
    let q := Queued s c k
    let va := q.base.toNat + 128 * (q.head.toNat % 2 ^ q.size)
    let s1 : State := { s with lqTurn := (c * 4 + k + 1) % 256 }
    (s1.rangeKinds c va 128 reading ≠ [] → Comes (.launchAdmit c k) s fun t => SameMem s t ∧ Queued t c k = { q with err := true } ∧ t.launches = s.launches)
    ∧ (s1.rangeKinds c va 128 reading = [] →
        let s2 := s1.touchRange c va 128 reading
        let b := (s1.rangePas c va 128 reading).map s2.merged
        let s3 := s2.setQueue c k { q with head := q.head + 1 }
        (s3.reject c b (recordOf b) = none → Comes (.launchAdmit c k) s fun t => (Queued t c k).head = q.head + 1
          ∧ ∃ l, t.launches.look l.launch = some l ∧ l.ctx = c ∧ l.record = recordOf b ∧ l.nextGang = 0 ∧ l.running = 0
            ∧ l.holds = ((s3.liveLaunches c).filter fun p => (recordOf b).preds.contains p.2.record.tag && !p.2.triggered).map Prod.fst)
        ∧ ∀ r, s3.reject c b (recordOf b) = some r → Comes (.launchAdmit c k) s fun t => (Queued t c k).head = q.head + 1 ∧ t.launches = s3.launches))
  ∧ (∀ (s : State) (id pa : Nat) (l : Launch), s.launches.look id = some l → l.record.inq ≠ 0 → l.parent = none → l.holds = [] → l.dead = false →
    s.queueAt l.ctx l.record.inq.toNat = some pa → s.badSectors = [] → s.badSram = [] →
    let q := s.qdesc pa
    let at_ := l.record.args.toNat + (l.dispatches % l.record.depth) * blockBytes q.batch
    let first := (q.cmt + 2 ^ 32 - q.filled) % 2 ^ 32
    q.consumer = l.record.tag → q.batch ≤ q.filled → q.batch ≠ 0 → (∀ p ∈ s.launches, p.2.parent ≠ some id) →
    (((List.range q.batch).map fun j => (first + j) % 2 ^ 32).filterMap fun n => s.filledSlot q n).length = q.batch →
    s.rangeKinds l.ctx at_ (blockBytes q.batch) writing = [] → Comes (.queueDispatch id) s fun t =>
      ∃ y, t.launches.look y.launch = some y ∧ y.ctx = l.ctx ∧ y.parent = some id ∧ y.dnum = l.dispatches ∧ y.argsAt = BitVec.ofNat 64 at_ ∧ y.queue = pa
        ∧ y.record = { l.record with ext := [1, 1, 1] }
        ∧ (y.launch ≠ id → t.launches.look id = some { l with dispatches := l.dispatches + 1 }))
  ∧ (∀ (s : State) (id a : Nat) (l : Launch), s.launches.look id = some l → l.record.inq = 0 ∨ l.parent ≠ none → s.launchOver l = true →
      Comes (.launchComplete id) s fun t => t.launches.look id = none
        ∧ (∀ n y, n ≠ id → s.launches.look n = some y → ∃ y', t.launches.look n = some y' ∧ id ∉ y'.holds ∧ y'.record = y.record)
        ∧ (s.rangeKinds l.ctx l.record.statva.toNat 8 writing = [] → (statusState s l).rangePas l.ctx l.record.statva.toNat 8 writing = fromN a 8 →
            t.rdM a 8 = (l.outcome + l.cause.toNat * 2 ^ 8 + l.ended * 2 ^ 32) % 2 ^ 64))
  ∧ (∀ s : State,
    (s.placing = none → s.chooseGang true = none → exec .gangPlace s = .next s)
    ∧ (∀ p, s.placing = some p → p.asked = none →
        (∀ i, stageDue s p = some i → (i = 3 → s.leaving p = []) → Comes .gangPlace s fun t => t = { s with placing := some { p with stage := i + 1 }, agenda := t.agenda }
          ∧ t.agenda = (s.placeSteps p i ++ [Due.gangPlace]).map Turn.todo ++ s.agenda)
        ∧ ∀ l, stageDue s p = none → p.gang = none → s.launches.look p.launch = some l → l.launch = p.launch →
          State.hasBlocks { s with placing := none } l = true → (∀ c ∈ p.cores, State.canTake { s with placing := none } l c = true) → Comes .gangPlace s fun t =>
            t.placing = none ∧ (∃ l', t.launches.look p.launch = some l' ∧ l'.nextGang = l.nextGang + 1 ∧ l'.running = l.running + p.cores.length)
              ∧ ∃ g, t.gangs.look s.serial = some g ∧ g.launch = p.launch ∧ g.cores = p.cores ∧ g.index = l.nextGang ∧ g.saved = false))
  ∧ (∀ (s : State) (c n : Nat) (w : Workgroup), s.wgOf c n = some w →
    (w.quantum * 1300 ≤ w.qcount → w.rank = 0 → s.placing = none →
      (s.chooseGang true = none → Comes (.quantumExpire c n) s fun t => SameMem s t ∧ t.wgOf c n = some { w with qcount := 0 })
      ∧ ∀ p, s.chooseGang true = some p → c ∈ p.clear → exec (.quantumExpire c n) s = .next (s.adopt p))
    ∧ (w.qcount < w.quantum * 1300 → exec (.quantumExpire c n) s = .next s)
    ∧ ∀ need, w.emin < w.emax → Comes (.shrinkRequest c n need) s fun t => SameMem s t
        ∧ t.wgOf c n = some { w with shrinkReq := true, shrinkTarget := max w.emin (s.wgSize c n - need) })
  ∧ ∀ (s : State) (p : Placing) (n : Nat), s.placing = some p → p.asked = some n → n + 2600 ≤ s.now →
      (State.withdraw { s with placing := none }).chooseGang false = none → Comes .shrinkTimeout s fun t => SameMem s t ∧ t.placing = none
        ∧ ∀ c k w, t.wgOf c k = some w → w.shrinkReq = false

/-- R342, R363, R383 to R389, R391, R392: the context switch: a program is read into its region; a core halts, its work is saved in a slot with all that it holds, the slot's image
goes to backing and the slot is zeroed; a half of the local store goes to its owner's backing; held statuses reach the image; and an image comes back. (The model's choices: the bytes that an image takes in image backing are free, log 20; where a half
lies in its owner's backing, log 21.) -/
def Obligations.ContextSwitch : Prop :=
  (∀ (s : State) (c x prog r : Nat) (l : List Resident), let k := s.core c
    let p := s.program x prog
    (s.ctx x).live = true → k.resident x prog p = none → s.rangeKinds x p.va (2 * p.len) reading = [] →
    s.badSectors = [] → s.badSram = [] → s.poisoned = [] → s.shadows = [] → k.makeRoom (ceilDiv p.len regionParcels) 4 k.programs = some (r, l) →
    let s1 := s.touchRange x p.va (2 * p.len) reading
    let ps := parcelsOf ((s1.rangePas x p.va (2 * p.len) reading).map s1.merged)
    Comes (.programLoad c x prog) s fun t => (∃ y ∈ (t.core c).programs, y.ctx = x ∧ y.prog = prog ∧ y.va = p.va ∧ y.len = p.len ∧ y.region = r)
      ∧ (∀ j, j < ps.length → SMap.get 0 (t.core c).pstore (r * regionParcels + j) = ps.getD j 0)
      ∧ ∀ j, j < r * regionParcels ∨ r * regionParcels + ps.length ≤ j → SMap.get 0 (t.core c).pstore j = SMap.get 0 k.pstore j)
  ∧ (∀ (s : State) (c x : Nat), (s.core c).runs x = true → (s.core c).halted = false → Comes (.preemptRequest c x) s fun t => SameMem s t
      ∧ t.core c = { s.core c with halted := true })
  ∧ (∀ (s : State) (c x i : Nat), (s.core c).halted = true → (s.core c).ctx = some x → (s.core c).freeSaveSlot = some i →
      Comes (.contextSave c) s fun t => SameMem s t ∧ (t.core c).ctx = none ∧ (t.core c).halted = false ∧ (t.core c).groups = [] ∧ (t.core c).wgs = []
        ∧ ∃ im, (t.core c).slots.look i = some { image := some im, zeroed := false } ∧ im.ctx = x ∧ im.core = c ∧ im.groups = (s.core c).groups
          ∧ im.wgs = (s.core c).wgs ∧ im.accs = (s.core c).accs ∧ im.weights = (s.core c).weights ∧ im.perm = (s.core c).perm ∧ im.tiles = (s.core c).tiles
          ∧ im.mqueue = (s.core c).mqueue ∧ im.streams = (s.core c).arrivedStreams ∧ im.mseq = (s.core c).mseq ∧ im.cseq = (s.core c).cseq)
  ∧ (∀ (s : State) (c i : Nat), (s.core c).slots.look i = some { image := none, zeroed := false } → Comes (.saveSlotZeroed c i) s fun t => SameMem s t
      ∧ SMap.get ({} : SaveSlot) (t.core c).slots i = {})
  ∧ (∀ (s : State) (c i : Nat) (im : Image) (z : Bool), (s.core c).slots.look i = some { image := some im, zeroed := z } → s.backed im.ctx im.core = false →
      s.shadows = [] → Comes (.imageToBacking c i) s fun t => SameMemBut s t (s.quota im.ctx 0x50 8 + im.core * (768 * 1024)) (768 * 1024)
        ∧ t.backing = s.backing ++ [im] ∧ (t.core c).slots.look i = some { image := none, zeroed := false })
  ∧ (∀ (s : State) (c h x : Nat), (s.core c).halfOwner h = some x → (s.core c).runs x = false → s.shadows = [] →
      let at_ := s.backAt c x h
      let cells := ((s.core c).ls.filter fun p => inHalf h p.1).map fun p => (at_ + p.1 % 2 ^ 20, p.2)
      Comes (.lsHalfEvict c h) s fun t => (t.core c).halfOwner h = none ∧ (∀ o, o / 2 ^ 20 = h → SMap.get 0 (t.core c).ls o = 0)
        ∧ (∀ o, o / 2 ^ 20 ≠ h → SMap.get 0 (t.core c).ls o = SMap.get 0 (s.core c).ls o)
        ∧ ∀ a, t.merged a = if at_ ≤ a ∧ a < at_ + 2 ^ 20 then (lastByte cells a).getD 0 else s.merged a)
  ∧ (∀ (s : State) (c i g uid : Nat) (d : BitVec 7) (mask : Mask) (v : Word) (im : Image) (z : Bool) (x : Group), (s.core c).halted = false →
      (s.core c).redirect = [.status uid d mask v] → s.findUid uid = none → (s.core c).slots.look i = some { image := some im, zeroed := z } →
      im.groups.look g = some x → x.uid = uid → Comes (.redirectApply c) s fun t => SameMem s t ∧ (t.core c).redirect = []
        ∧ ∃ im' G, (t.core c).slots.look i = some { image := some im', zeroed := z } ∧ im'.groups.look g = some G ∧ Answers x G mask d.toNat v
          ∧ d.toNat ∉ G.pend)
  ∧ ∀ (s : State) (c x : Nat) (im : Image), (s.core c).idle = true → leastBy (fun im : Image => im.serial) (s.restorable c x) = some im →
      s.halvesToEvict c x = [] → (∀ p ∈ im.wgs, (s.residentFor c p.2).isSome = true) → (∃ i z, (s.core c).slots.look i = some { image := some im, zeroed := z }) →
      im.core = c → (∀ o ∈ im.mqueue, (∃ w a, o.kind = .mldb w a) → (im.streams.look o.op).isSome = true) → Comes (.contextRestore c x) s fun t => (t.core c).ctx = some x ∧ (t.core c).accs = im.accs ∧ (t.core c).weights = im.weights ∧ (t.core c).perm = im.perm
        ∧ (t.core c).tiles = im.tiles ∧ (t.core c).mqueue = im.mqueue.map (MatrixOp.on c) ∧ (t.core c).streams = im.streams
        ∧ (∀ n, (im.groups.look n = none → t.grp c n = none) ∧ ∀ g, im.groups.look n = some g → ∃ G, t.grp c n = some G ∧ SameRegs g G ∧ SamePreds g G
            ∧ G.uid = g.uid ∧ G.pend = g.pend)
        ∧ ∀ n w, im.wgs.look n = some w → ∃ w', t.wgOf c n = some w' ∧ w'.uid = w.uid ∧ w'.gang = w.gang ∧ w'.tiles = w.tiles ∧ w'.accs = w.accs ∧ w'.size = w.size

/-- R160, R360 to R364, R393 to R395, R398 to R400, R437: the control processor's operations: a kill begins with the context's work gone from every core and ends, once its
writes are performed, with nothing left of it; contexts are created and their stacks loaded; regions are checked, zeroed, tagged and released; communicators are opened and
closed; and registers are written and read. (The model's choices: in which order the checks of an operation are made where several fail, log 65; the results of an open that
R398 lists none for, logs 118 and 119.) -/
def Obligations.ControlProcessor : Prop :=
  (∀ (s : State) (val : BitVec 32), s.regs.killing = false → val.getLsbD 31 = true → Comes (.ctxKill val) s fun t => t.regs.killing = true
      ∧ t.regs.killCtx = val.toNat % 64 ∧ (∀ c n w, t.wgOf c n = some w → w.ctx ≠ val.toNat % 64) ∧ ∀ im ∈ t.images, im.ctx ≠ val.toNat % 64)
  ∧ (∀ s : State, let x := s.regs.killCtx
      s.regs.killing = true → s.regs.resetting = false → s.shadows = [] → s.ctxWritesDone x s.serial = true →
      (∀ p ∈ s.windows, p.2.ctx = x → p.2.drains = []) → Comes .ctxKillComplete s fun t => t.regs.killing = false ∧ t.ctx x = {}
        ∧ (∀ f, ¬ ((t.tags.get 0 f).toNat % 64 = x ∧ (t.tags.get 0 f).toNat / 64 % 2 = 1)) ∧ NoTlb t (fun e => decide (e.ctx = x))
        ∧ ∀ p ∈ t.ops, p.2.ctx ≠ x)
  ∧ (∀ s : State, s.regs.cxBusy = true → let x := s.regs.cxCtx
    let pa := s.regs.cxQuota.toNat
    (s.regs.cxOp = 0 → (s.ctx x).live = true → Comes .cxCreate s fun t => SameMem s t ∧ t.regs.cxBusy = false ∧ t.regs.cxResult = 1)
    ∧ (s.regs.cxOp = 0 → (s.ctx x).live = false → s.regs.killing = false → pa % 256 = 0 → s.inDevice pa 256 = true → s.frameTagged pa = false →
        (s.quotaOk pa = false → Comes .cxCreate s fun t => SameMem s t ∧ t.regs.cxBusy = false ∧ t.regs.cxResult = 3)
        ∧ (s.quotaOk pa = true → Comes .cxCreate s fun t => SameMem s t ∧ t.regs.cxBusy = false ∧ t.regs.cxResult = 0 ∧ t.ctx x = { live := true, quota := pa }
            ∧ ∀ d, d < 8 → t.wayMask d x = BitVec.ofNat 16 (s.rdM (pa + 0x10 + 2 * d) 2)))
    ∧ (s.regs.cxOp = 1 → (s.ctx x).live = true → s.hasWork x = false → s.stackB x % 65536 = 0 →
        (∀ i, i < ceilDiv (s.quota x 0x68 4 * s.blockSize x) 65536 → s.tagNames (s.stackB x + i * 65536) x 0 = true) → Comes .cxLoadStack s fun t => SameMem s t
          ∧ t.regs.cxBusy = false ∧ t.regs.cxResult = 0 ∧ t.ctx x = { s.ctx x with stackn := s.quota x 0x68 4, blocks := [] }))
  ∧ (∀ s : State, s.regs.faBusy = true → let a := s.regs.faDpa.toNat
    let n := regionBytes s.regs.faSize
    (∀ r, s.faCheck = some r → s.regs.faZeroing = false → Comes (if s.regs.faRel then .faRelease else .faAssign) s fun t => SameMem s t
        ∧ t.regs.faBusy = false ∧ t.regs.faResult = r)
    ∧ (s.faCheck = none → s.regs.faRel = false → s.regs.faZeroing = false → (s.ctx s.regs.faCtx).live = true →
        (∀ p ∈ s.tags, a / 65536 ≤ p.1 → p.1 < a / 65536 + n / 65536 → p.2.toNat / 64 % 2 = 0) → Comes .faAssign s fun t => SameMem s t ∧ t.regs.faZeroing = true)
    ∧ (s.regs.faZeroing = true → s.hostHeld a n = [] → Comes .frameZeroComplete s fun t => (∀ d b, a ≤ b → b < a + n → t.dieView d b = 0)
        ∧ (∀ d b, b < a ∨ a + n ≤ b → t.dieView d b = s.dieView d b)
        ∧ (∀ f, a / 65536 ≤ f → f < a / 65536 + n / 65536 → t.tags.get 0 f = ownerTag s.regs.faCtx s.regs.faSize) ∧ t.regs.faBusy = false ∧ t.regs.faResult = 0)
    ∧ (s.faCheck = none → s.regs.faRel = true → (s.ctx s.regs.faCtx).live = true → s.accessesDone s.regs.faCtx s.serial = true →
        (∀ p ∈ s.members, p.2.exchange = true → p.2.stage ≠ .running) → s.regionTags a s.regs.faSize (fun x => decide (x = some (ownerTag s.regs.faCtx s.regs.faSize))) = true → (∀ p ∈ s.ctxs, p.2.stackn = 0) →
        Comes .faRelease s fun t => SameMem s t ∧ t.regs.faBusy = false ∧ t.regs.faResult = 0 ∧ NoTlb t (fun e => s.mapsInto e s.regs.faCtx a n)
          ∧ ∀ f, a / 65536 ≤ f → f < a / 65536 + n / 65536 → t.tags.get 0 f = 0))
  ∧ (∀ (s : State) (val : BitVec 64), let x := val.toNat % 64
    let va := val.toNat / 64 * 64
    let s1 : State := { s with regs := { s.regs with commOpen := val } }
    let b := (s1.rangePas x va 64 reading).map s1.merged
    (s.regs.commBusy = false → (s.ctx x).live = false → Comes (.commOpen val) s fun t => SameMem s t ∧ t.regs.commResult = 1)
    ∧ (s.regs.commBusy = false → (s.ctx x).live = true → s1.rangeKinds x va 64 reading = [] → leafBit (s1.engineRes x va reading).leaf 7 = false → commOk b = true →
        field b 2 1 = 0 → s1.rangeKinds x (field b 0x18 8) (4 * (field b 0x0C 4 - field b 8 4)) both = [] → (s1.ctx x).comms.look (field b 0 2) = none →
        (s1.ctx x).comms.length < 256 → Comes (.commOpen val) s fun t => t.regs.commResult = 0
          ∧ ∃ cm, t.commOf x (field b 0 2) = some cm ∧ cm.kind = 0 ∧ cm.span = false ∧ cm.n = field b 4 4 ∧ cm.lo = field b 8 4 ∧ cm.hi = field b 0x0C 4)
    ∧ ((s.commOf x (val.toNat / 64 % 65536)).isSome = true → (∀ p ∈ s.members, ¬ (p.2.ctx = x ∧ p.2.comm = val.toNat / 64 % 65536)) →
        Comes (.commClose val) s fun t => SameMem s t ∧ t.regs.commResult = 0 ∧ t.commOf x (val.toNat / 64 % 65536) = none))
  ∧ ∀ (s : State) (val : BitVec 32) (v : BitVec 64), (Comes (.nqHeadWrite val) s fun t => SameMem s t ∧ t.regs.nqHead = val)
      ∧ exec (.registerWrite 0 0x110 4 v) s = exec (.nqHeadWrite (v.setWidth 32)) s
      ∧ exec (.registerWrite 0 0x200000 4 v) s = exec (.ctxKill (v.setWidth 32)) s
      ∧ exec (.registerWrite 0 0x300000 8 v) s = exec (.commOpen v) s ∧ exec (.registerWrite 0 0x300008 8 v) s = exec (.commClose v) s
      ∧ exec (.registerWrite 1 0 4 v) s = exec (.aszCapWrite (v.setWidth 32)) s
      ∧ (Comes (.registerWrite 1 0x2010 4 v) s fun t => t = { s with regs := { s.regs with erHead := v.setWidth 32 } })
      ∧ (Comes (.registerWrite 1 0x2028 4 v) s fun t => t = { s with regs := { s.regs with wdPeriod := v.setWidth 16 } })
      ∧ (8 ≤ s.regs.erSize → s.regs.erSize ≤ 14 → Comes (.registerWrite 1 0x2008 4 v) s fun t => SameMem s t ∧ 8 ≤ t.regs.erSize ∧ t.regs.erSize ≤ 14)
      ∧ exec (.registerWrite 1 0x2010 3 v) s = .next s
      ∧ (∀ n, n ≠ 4 → n ≠ 8 → Comes (.registerWrite 0 0x110 n v) s fun t => t = { s with regs := { s.regs with unsupported := s.regs.unsupported + 1 } })
      ∧ (∀ a n, s.inDevice a n = true → 0 < n → n ≤ 64 → s.frameTagged a = true → Comes (.registerWrite 3 a n v) s fun t => SameMem s t)
      ∧ (s.regs.bootStep < 16 → s.regs.bootFail < 256 →
          s.readBar 0 8 = some (s.regs.bootStep + 16 * s.regs.bootFail + if s.regs.ready then 2 ^ 31 else 0))
      ∧ s.readBar 0x110 4 = some s.regs.nqHead.toNat ∧ s.readBar 0x114 4 = some 0 ∧ s.readBar 0x18 8 = some 0 ∧ s.readBar 2 4 = none
      ∧ (∀ n, 1 ≤ n → n ≤ 64 → s.readBar 0x800000 n = some 0) ∧ s.readControl 0x2018 4 = s.regs.erTail.toNat

namespace Sys2Proof.Claims

/-- R441: a header whose fields are within their widths. -/
def Fits (h : Header) : Prop :=
  h.seq < 2 ^ 12 ∧ h.ack < 2 ^ 12 ∧ h.kidx < 2 ∧ h.typ < 2 ^ 4 ∧ h.vc < 2 ^ 2 ∧ h.ctr < 2 ^ 48 ∧ h.dpkg < 2 ^ 16

/-- R442: a port has sent one flit of a type on the management channel, kept as sent. -/
def SentFlit (x y : Port) (typ : Nat) : Prop :=
  ∃ f : Flit, y.buffer = x.buffer ++ [f] ∧ y.out = x.out ++ [f] ∧ y.nextSeq = (x.nextSeq + 1) % 4096 ∧ f.head.seq = x.nextSeq ∧ f.head.typ = typ
    ∧ f.head.vc = 2 ∧ f.head.kidx = x.kidx ∧ f.replays = 0

/-- R442: a port of which a flit may go at once. -/
def Free (x : Port) : Prop := x.up = true ∧ x.waiting = [] ∧ x.buffer.length < 256

/-- R442: a flit that a port accepts, and that carries no ack. -/
def InOrder (x : Port) (h : Header) : Prop := h.seq = x.expected ∧ h.vc ≠ 3 ∧ (x.rxKeys.look h.kidx).isSome = true ∧ h.ackv = false

/-- R442: a port that has accepted a flit. -/
def accepted (x : Port) (h : Header) (now : Nat) : Port where
  __ := x
  heard := now
  expected := (x.expected + 1) % 4096
  got := true
  naked := false
  received := x.received ++ [h]

/-- R442: a port that has sent again, unchanged, what it keeps after a flit. -/
def replayed (x : Port) (good : Nat) : Port where
  __ := x
  buffer := x.buffer.map fun f => if covered good f.head.seq then f else { f with replays := f.replays + 1 }
  out := x.out ++ x.buffer.filter fun f => !covered good f.head.seq
  replays := min (x.replays + 1) 65535

end Sys2Proof.Claims

/-- R440 to R446: peer ports: a header's fields come back from its bits; an enabled port trains and starts its key exchange; a flit in order that verifies is
taken, another draws one NAK; an ack releases what it covers; a NAK sends the rest again, and a flit replayed eight times loses the port; keys are exchanged,
roll over in either direction and retire; and silence or a lost lane takes the port down. (The model's choices: log 63, the events' operands, the numbers that
NAK and key-exchange flits take and pp.stat.replays; log 121, the framing of a key exchange and what follows a signature that does not verify.) -/
def Obligations.PeerPorts : Prop :=
  (∀ h : Header, Fits h → headerOf h.word = h ∧ h.word < 2 ^ 96)
  ∧ ∀ (s : State) (p : Nat), let x := s.port p
    let Port' (i : Instr) (y : Port) : Prop := Comes i s fun t => SameMem s t ∧ t.port p = y
    (x.en = false → Port' (.ppEnable p) { x with en := true, training := true, lost := false })
    ∧ (x.en = true → x.training = true → x.waiting = [] → Comes (.peerPortTrained p) s fun t => SameMem s t ∧ (t.port p).up = true ∧ (t.port p).enc = false
        ∧ (t.port p).nextSeq = 1 ∧ (t.port p).expected = 0 ∧ ((t.port p).buffer.map fun f => (f.head.typ, f.head.seq)) = [(4, 0)])
    ∧ (x.training = false → exec (.peerPortTrained p) s = .next s)
    ∧ (∀ seq kidx ok w, x.up = true → let h : Header := { headerOf w with seq := seq, kidx := kidx }
        (ok = true → h.typ < 5 → InOrder x h → Port' (.flitData p seq kidx ok w) (accepted x { h with typ := 1 } s.now))
        ∧ (ok = false ∨ seq ≠ x.expected ∨ x.rxKeys.look kidx = none ∨ 5 ≤ h.typ ∨ h.vc = 3 →
            (x.naked = true ∨ x.enc = false → Port' (.flitData p seq kidx ok w) { x with heard := s.now })
            ∧ (x.naked = false → x.enc = true → Free x → Comes (.flitData p seq kidx ok w) s fun t => SameMem s t ∧ SentFlit x (t.port p) 2
                ∧ (t.port p).naked = true ∧ (t.port p).expected = x.expected ∧ (t.port p).received = x.received))
        ∧ (ok = true → InOrder x { headerOf w with seq := seq } → Comes (.flitKeyRetire p seq kidx ok w) s fun t => SameMem s t
            ∧ (t.port p).rxKeys.look kidx = none ∧ (t.port p).expected = (x.expected + 1) % 4096 ∧ (t.port p).txKeys = x.txKeys))
    ∧ (∀ w, x.up = true → w / 2 ^ 128 % 2 = 1 → let h := headerOf w
        (InOrder x h → (∀ f ∈ x.buffer, f.replays < 7) → Port' (.flitNak p w) (replayed (accepted x { h with typ := 2 } s.now) h.ack))
        ∧ (InOrder x h → (∃ f ∈ x.buffer, covered h.ack f.head.seq = false ∧ 7 ≤ f.replays) → Comes (.flitNak p w) s fun t => (t.port p).up = false
            ∧ (t.port p).lost = true)
        ∧ (h.seq = x.expected → h.vc ≠ 3 → (x.rxKeys.look h.kidx).isSome = true → h.ackv = true → x.lastOld = none → x.roll = false → x.waiting = [] →
            Port' (.flitIdle p w) { x with heard := s.now, buffer := x.buffer.filter fun f => !covered h.ack f.head.seq }))
    ∧ (∀ bytes : List Byte, bytes.length = 256 → Free x → x.lastOld = none → x.roll = decide (x.keyRun = .own) → x.rollAgain = false →
        x.kidx < 2 → x.enc = decide (x.keyRun ≠ .first) →
        let h := headerOf (ofBytes (bytes.take 16))
        let text := (bytes.drop 16).take 224
        h.seq = x.expected → h.vc ≠ 3 → h.ackv = false → Comes (.flitKeyExchange p bytes) s fun t => SameMem s t
          ∧ match Config.exchangeOf (x.transcript ++ text) with
            | none => (t.port p).enc = x.enc ∧ (t.port p).txKeys = x.txKeys ∧ (t.port p).rxKeys = x.rxKeys ∧ SentFlit x (t.port p) 4
            | some (cert, sig, _) =>
              if Config.falconVerify cert (Config.shake256 64 x.transcript) sig then
                (t.port p).enc = true
                  ∧ (x.keyRun = .first → (t.port p).kidx = 0 ∧ ((t.port p).txKeys.look 0).isSome = true ∧ ((t.port p).rxKeys.look 0).isSome = true)
                  ∧ (x.keyRun = .own → (t.port p).kidx = 1 - x.kidx ∧ ((t.port p).txKeys.look (1 - x.kidx)).isSome = true ∧ (t.port p).rxKeys = x.rxKeys)
                  ∧ (x.keyRun = .peer ∨ x.keyRun = .idle → (t.port p).kidx = x.kidx ∧ (t.port p).txKeys = x.txKeys
                      ∧ ((t.port p).rxKeys.look (if (x.rxKeys.look 0).isSome then 1 else 0)).isSome = true)
              else (t.port p).txKeys = x.txKeys ∧ (t.port p).rxKeys = x.rxKeys ∧ (t.port p).enc = x.enc)
    ∧ (x.enc = true → x.roll = false → x.keyRun = .idle → Free x →
        let Rolls (t : State) : Prop := SameMem s t ∧ (t.port p).roll = true ∧ (t.port p).keyRun = .own ∧ SentFlit x (t.port p) 4
        Comes (.ppRoll p) s Rolls ∧ (2 ^ 47 ≤ x.ctr → Comes (.keyCounterLimit p) s Rolls))
    ∧ (x.up = true → let Lost (t : State) : Prop := (t.port p).up = false ∧ (t.port p).lost = true ∧ (t.port p).txKeys = [] ∧ (t.port p).rxKeys = []
        (x.heard + 2600 ≤ s.now → Comes (.peerSilenceTimeout p) s Lost) ∧ ∀ lane, lane < 4 → Comes (.peerLaneLoss p lane) s Lost)

namespace Sys2Proof.Claims

/-- Nothing of a context is left on a core. -/
def GoneFrom (t : State) (c x : Nat) : Prop := ∀ n w, t.wgOf c n = some w → w.ctx ≠ x

/-- R456, R457: the module as it stands after a reset, at a step of the boot, host memory and what is fused apart. -/
def Freshly (s t : State) (step : Nat) : Prop :=
  (∀ a, t.merged a = if a < hostBase then 0 else s.merged a) ∧ (∀ x, (t.ctx x).live = false) ∧ t.regs.ready = false ∧ t.regs.bootStep = step
    ∧ (∀ c, (t.core c).groups = [] ∧ (t.core c).wgs = []) ∧ t.toks = [] ∧ t.residues = [] ∧ t.launches = [] ∧ t.regs.otpSeed = s.regs.otpSeed
    ∧ t.regs.otpVkey = s.regs.otpVkey ∧ t.regs.otpRevoked = s.regs.otpRevoked ∧ t.regs.otpSecver = s.regs.otpSecver

end Sys2Proof.Claims

/-- R87, R90, R170, R336, R435, R449 to R454, R456, R457, R460: each of the module's events completes. MOD_BOOT keeps the bundle's length and starts its
verification, which ends with the boot at step 6, or with the number of the first check that fails; Survey sets ready at step 7. A measurement request gets the slots, the
algorithm and their signature. Survey's home-group map is written, and Q until the first context is created; a refused access is recorded, or counted where the ring is full. A cold reset
clears the module and begins at step 1, and a warm one with no context live goes on from step 3; otherwise it starts to kill them. An estimate of a die is kept, and its alarm raised
at the second in a row above the share and withdrawn at the hundredth in a row within 90 %. A sensor at 95 °C raises the alarm, at 105 °C the emergency, which gates the
die's cores until it is cleared; an excess of input power with every alarm raised chooses the hottest die. The cap is written within its limits. A watchdog period without progress, and
a stop cause, leave no work of the context on the core. An encoding that is no instruction takes its cause. (The model's choices: a warm reset keeps the ports' enables,
log 66; what the operand of 0xEB names, log 67; which boot steps end of themselves, log 10; the clearing of an emergency, log 68; the number of Survey's ready, log 101.) -/
def Obligations.ModuleServices : Prop :=
  (∀ (s : State) (len : BitVec 32), s.regs.bootStep = 4 → Comes (.modBoot len) s fun t => t = { s with regs := { s.regs with bootLen := len, bootStep := 5 } })
  ∧ (∀ s : State, s.regs.bootStep = 5 →
      (∀ n, s.regs.bundleFails = some n → Comes .bundleVerifyComplete s fun t => t = { s with regs := { s.regs with bootStep := 4, bootFail := n } })
      ∧ (s.regs.bundleFails = none → Comes .bundleVerifyComplete s fun t => SameMem s t ∧ t.regs.ready = s.regs.ready ∧ t.regs.bootStep = 6 ∧ t.regs.bootFail = 0
          ∧ ∀ i, i < 3 → t.regs.slots.get [] (i + 1) = Config.shake256 64 (t.regs.section_ i)))
  ∧ (∀ (s : State) (v : BitVec 64), s.regs.bootStep = 7 → Comes (.registerWrite 2 24 8 v) s fun t => t = { s with regs := { s.regs with bootStep := 8, ready := true } })
  ∧ (∀ (s : State) (nonce bytes : List Byte) (g v : Nat),
      (Comes (.spdmGetMeasurements nonce) s fun t => SameMem s t ∧ t.regs.responses = s.regs.responses + 1 ∧ t.regs.doeAlg = some .vendorFalcon1024
        ∧ let slots := (List.range 8).flatMap fun i => s.regs.slots.get [] i
          t.regs.doe = slots ++ Config.falconSign s.regs.otpSeed (Config.shake256 64 (nonce ++ slots ++ toBytes 8 s.regs.responses)) s.regs.responses)
      ∧ (g < 8 → v < 8 → Comes (.gazetteerWrite g v) s fun t => SameMem s t ∧ t.regs.gazetteer.look g = some v)
      ∧ (s.regs.qHeld = false → v ≤ 64 → Comes (.gazetteerWrite 8 v) s fun t => SameMem s t ∧ t.regs.q = v)
      ∧ (s.regs.qHeld = true → exec (.gazetteerWrite 8 v) s = .next s)
      ∧ (Comes (.ideKmRequest bytes) s fun t => SameMem s t ∧ match Config.ideAct bytes with
          | none => t = s
          | some (stream, key) => stream < 2 → (key = [] → t.regs.ideKeys.look stream = none) ∧ (key ≠ [] → t.regs.ideKeys.look stream = some key))
      ∧ (10 ≤ v → exec (.surveyAccessRefused v) s = .next s)
      ∧ (v < 10 → Comes (.surveyAccessRefused v) s fun t => SameMem s t
        ∧ ((s.regs.erTail - s.regs.erHead).toNat = 2 ^ s.regs.erSize → t.regs.erOver = s.regs.erOver + 1 ∧ t.regs.cpMem = s.regs.cpMem)
        ∧ ((s.regs.erTail - s.regs.erHead).toNat ≠ 2 ^ s.regs.erSize → t.regs.erTail = s.regs.erTail + 1
            ∧ recordAt t.regs (s.regs.erTail.toNat % 2 ^ s.regs.erSize) = 5 * 2 ^ 8 + s.now % 2 ^ 48 * 2 ^ 32)))
  ∧ (∀ s : State, (Comes .coldReset s fun t => Freshly s t 1 ∧ t.regs.hostUp = false)
      ∧ (s.regs.killing = false → (∀ p ∈ s.ctxs, p.2.live = false) → Comes .warmReset s fun t => Freshly s t 3
          ∧ t.regs.hostUp = s.regs.hostUp ∧ ∀ p, (t.port p).en = (s.port p).en ∧ (t.port p).training = (s.port p).en)
      ∧ (s.regs.killing = false → (∃ p ∈ s.ctxs, p.2.live = true) → Comes .warmReset s fun t => t.regs.killing = true ∧ t.regs.resetting = true))
  ∧ (∀ (s : State) (watts : List Nat) (d celsius : Nat), d < 8 →
      (Comes (.powerEstimate watts) s fun t => SameMem s t ∧ ∀ w, watts[d]? = some w → (t.die d).estimate = w
          ∧ (s.regs.above d w 1 1 = true → 1 ≤ (s.die d).overs → t.regs.alarm.getLsbD d = true)
          ∧ (s.regs.above d w 9 10 = false → 99 ≤ (s.die d).unders → t.regs.alarm.getLsbD d = false))
      ∧ (95 ≤ celsius → celsius < 105 → Comes (.sensorOvertemp d celsius) s fun t => SameMem s t ∧ t.regs.alarm.getLsbD d = true ∧ t.regs.emerg = s.regs.emerg)
      ∧ (105 ≤ celsius → Comes (.sensorOvertemp d celsius) s fun t => t.regs.alarm.getLsbD d = true ∧ t.regs.emerg.getLsbD d = true
          ∧ (s.regs.emerg.getLsbD d = false → ∀ c, c / 12 = d → (t.core c).gated = true))
      ∧ (s.regs.emerg.getLsbD d = true → Comes (.emergencyClear d) s fun t => SameMem s t ∧ t.regs.emerg.getLsbD d = false ∧ ∀ c, c / 12 = d → (t.core c).gated = false)
      ∧ (s.regs.alarm = BitVec.allOnes 8 → (Comes .inputPowerExcess s fun t => t.regs.emerg.getLsbD s.hottest = true)
          ∧ (s.regs.emerg ≠ 0 → Comes .emergencyReselect s fun t => t.regs.emerg.getLsbD s.hottest = true)))
  ∧ (∀ (s : State) (val : BitVec 32), (400 ≤ val.toNat % 65536 → val.toNat % 65536 ≤ 900 → Comes (.aszCapWrite val) s fun t =>
        t = { s with regs := { s.regs with aszCap := val.setWidth 16 } })
      ∧ (val.toNat % 65536 < 400 ∨ 900 < val.toNat % 65536 → exec (.aszCapWrite val) s = .next s))
  ∧ (∀ (s : State) (c x : Nat), let last := (s.core c).progress + s.regs.wdPeriod.toNat * 1300000
      (s.regs.wdPeriod = 0 ∨ s.clkOf c < last → exec (.watchdogExpire c) s = .next s)
      ∧ (s.regs.wdPeriod ≠ 0 → last ≤ s.clkOf c → (s.core c).ctx = some x → (s.core c).runs x = true → Comes (.watchdogExpire c) s fun t => GoneFrom t c x))
  ∧ (∀ (s : State) (cause : BitVec 8) (x die core : Nat), 0xE0 ≤ cause.toNat → cause.toNat ≤ 0xEC → die < 8 → core < 12 →
      (Comes (.machineStopCause cause x die core) s fun t => GoneFrom t (die * 12 + core) x)
      ∧ ∀ slot, slot < 4 → Comes (.machineStopCause 0xEB x die (12 * slot + core)) s fun t => GoneFrom t (die * 12 + core) x)
  ∧ (∀ (s : State) (I : Iss) (cause : BitVec 8), Issues s I → I.gr.sup = false → Traps (.notAnInstruction cause) s I cause)
  ∧ ∀ (s : State) (c : Nat) (cp : Bool) (cause : BitVec 8), s.cur = some (.seq c cp) →
      ((s.core c).seqOf cp).run = .running → Stops (.notAnInstruction cause) s c cp cause
end

