-- ==== Sys2Proof/Laws/SMap.lean ====
section
/-! SUPPORT. Laws of sparse tables: reading after `put`, `set` and `erase`, at the key written and elsewhere, and the canonical form
that `set` and filtering keep. -/

namespace Sys2Proof.SMap

variable {α : Type}

theorem look_put_self (m : SMap α) (k : Nat) (v : α) : look (put m k v) k = some v := by
  induction m with
  | nil => simp [put, look]
  | cons p t ih =>
    obtain ⟨a, w⟩ := p
    simp only [put]
    split
    · simp [look]
    · split
      · simp [look]
      · rename_i h1 h2
        simp only [look, ih]
        rw [if_neg (fun h => h2 h.symm)]

theorem look_put_ne (m : SMap α) {k j : Nat} (v : α) (h : j ≠ k) : look (put m k v) j = look m j := by
  induction m with
  | nil => simp [put, look, Ne.symm h]
  | cons p t ih =>
    obtain ⟨a, w⟩ := p
    simp only [put]
    split
    · simp [look, Ne.symm h]
    · split
      · rename_i h2; subst h2; simp [look, Ne.symm h]
      · simp only [look, ih]

theorem look_put (m : SMap α) (k j : Nat) (v : α) : look (put m k v) j = if j = k then some v else look m j := by
  split
  · rename_i h; subst h; exact look_put_self m j v
  · exact look_put_ne m v ‹_›

theorem look_erase_self (m : SMap α) (k : Nat) : look (erase m k) k = none := by
  induction m with
  | nil => rfl
  | cons p t ih =>
    obtain ⟨a, w⟩ := p
    simp only [erase, List.filter_cons, ne_eq, decide_not] at ih ⊢
    split
    · rename_i h
      have : a ≠ k := by simpa using h
      simp only [look, if_neg this]
      exact ih
    · exact ih

theorem look_erase_ne (m : SMap α) {k j : Nat} (h : j ≠ k) : look (erase m k) j = look m j := by
  induction m with
  | nil => rfl
  | cons p t ih =>
    obtain ⟨a, w⟩ := p
    simp only [erase, List.filter_cons, ne_eq, decide_not] at ih ⊢
    split
    · simp only [look, ih]
    · rename_i hk
      have ha : a = k := by simpa using hk
      simp only [look, ih]
      rw [if_neg (fun e => h (by rw [← e, ha]))]

theorem look_set [DecidableEq α] (d : α) (m : SMap α) (k j : Nat) (v : α) :
    look (set d m k v) j = if j = k then (if v = d then none else some v) else look m j := by
  unfold set
  by_cases hj : j = k
  · subst hj
    rw [if_pos rfl]
    split
    · exact look_erase_self m j
    · exact look_put_self m j v
  · rw [if_neg hj]
    split
    · exact look_erase_ne m hj
    · exact look_put_ne m v hj

/-- Reading after writing: the value written, and every other key as before. -/
theorem get_set [DecidableEq α] (d : α) (m : SMap α) (k j : Nat) (v : α) :
    get d (set d m k v) j = if j = k then v else get d m j := by
  unfold get
  rw [look_set]
  split
  · split
    · rename_i h; simp [h]
    · rfl
  · rfl

theorem get_put (d : α) (m : SMap α) (k j : Nat) (v : α) : get d (put m k v) j = if j = k then v else get d m j := by
  unfold get
  rw [look_put]
  split <;> rfl

/-! ### The canonical form -/

theorem risingFrom_mono {lo lo' : Nat} (h : lo ≤ lo') (m : SMap α) (hm : risingFrom lo' m = true) : risingFrom lo m = true := by
  cases m with
  | nil => rfl
  | cons p t =>
    obtain ⟨a, w⟩ := p
    simp only [risingFrom, Bool.and_eq_true, decide_eq_true_eq] at hm ⊢
    exact ⟨by omega, hm.2⟩

theorem risingFrom_put (m : SMap α) (lo k : Nat) (v : α) (hk : lo ≤ k) (hm : risingFrom lo m = true) :
    risingFrom lo (put m k v) = true := by
  induction m generalizing lo with
  | nil => simp [put, risingFrom, hk]
  | cons p t ih =>
    obtain ⟨a, w⟩ := p
    simp only [risingFrom, Bool.and_eq_true, decide_eq_true_eq] at hm
    simp only [put]
    split
    · simp only [risingFrom, Bool.and_eq_true, decide_eq_true_eq]
      exact ⟨hk, by omega, hm.2⟩
    · split
      · rename_i h; subst h
        simp only [risingFrom, Bool.and_eq_true, decide_eq_true_eq]
        exact ⟨hk, hm.2⟩
      · simp only [risingFrom, Bool.and_eq_true, decide_eq_true_eq]
        exact ⟨hm.1, ih (a + 1) (by omega) hm.2⟩

theorem risingFrom_filter (m : SMap α) (lo : Nat) (f : Nat × α → Bool) (hm : risingFrom lo m = true) :
    risingFrom lo (m.filter f) = true := by
  induction m generalizing lo with
  | nil => rfl
  | cons p t ih =>
    obtain ⟨a, w⟩ := p
    simp only [risingFrom, Bool.and_eq_true, decide_eq_true_eq] at hm
    simp only [List.filter_cons]
    split
    · simp only [risingFrom, Bool.and_eq_true, decide_eq_true_eq]
      exact ⟨hm.1, ih (a + 1) hm.2⟩
    · exact ih lo (risingFrom_mono (by omega) t hm.2)

theorem all_put (m : SMap α) (k : Nat) (v : α) (f : Nat × α → Bool) (hv : f (k, v) = true) (hm : m.all f = true) :
    (put m k v).all f = true := by
  induction m with
  | nil => simp [put, hv]
  | cons p t ih =>
    obtain ⟨a, w⟩ := p
    simp only [List.all_cons, Bool.and_eq_true] at hm
    simp only [put]
    split
    · simp [hv, hm.1, hm.2]
    · split
      · simp [hv, hm.2]
      · simp [hm.1, ih hm.2]

theorem wf_nil [DecidableEq α] (d : α) : wf d ([] : SMap α) = true := rfl

theorem wf_filter [DecidableEq α] (d : α) (m : SMap α) (f : Nat × α → Bool) (hm : wf d m = true) : wf d (m.filter f) = true := by
  simp only [wf, Bool.and_eq_true] at hm ⊢
  refine ⟨risingFrom_filter m 0 f hm.1, ?_⟩
  rw [List.all_eq_true] at hm ⊢
  exact fun p hp => hm.2 p (List.mem_of_mem_filter hp)

theorem wf_erase [DecidableEq α] (d : α) (m : SMap α) (k : Nat) (hm : wf d m = true) : wf d (erase m k) = true :=
  wf_filter d m _ hm

/-- The canonical update keeps the canonical form. -/
theorem wf_set [DecidableEq α] (d : α) (m : SMap α) (k : Nat) (v : α) (hm : wf d m = true) : wf d (set d m k v) = true := by
  unfold set
  split
  · exact wf_erase d m k hm
  · rename_i h
    simp only [wf, Bool.and_eq_true] at hm ⊢
    exact ⟨risingFrom_put m 0 k v (Nat.zero_le _) hm.1, all_put m k v _ (by simpa using h) hm.2⟩

/-- A rising table lists no key below its bound. -/
theorem look_lt (m : SMap α) (lo k : Nat) (hm : risingFrom lo m = true) (hk : k < lo) : look m k = none := by
  induction m generalizing lo with
  | nil => rfl
  | cons p t ih =>
    obtain ⟨a, w⟩ := p
    simp only [risingFrom, Bool.and_eq_true, decide_eq_true_eq] at hm
    simp only [look]
    rw [if_neg (by omega)]
    exact ih (a + 1) hm.2 (by omega)

end Sys2Proof.SMap
end

