-- ==== Sys2Proof/Laws/State.lean ====
section
/-! SUPPORT. The small lemmas of the state's named updates: what each leaves of every field, true by unfolding, and what reading gives
after writing. -/

namespace Sys2Proof.Machine


/-! ### `State.setCore`, `State.setDie`, `State.setCtx`, `State.setMerged`, `State.take` -/

@[simp] theorem State.setCore_agenda (s : State) (c : Nat) (k : Core) : (s.setCore c k).agenda = s.agenda := rfl
@[simp] theorem State.setCore_cur (s : State) (c : Nat) (k : Core) : (s.setCore c k).cur = s.cur := rfl
@[simp] theorem State.setCore_lastUnit (s : State) (c : Nat) (k : Core) : (s.setCore c k).lastUnit = s.lastUnit := rfl
@[simp] theorem State.setCore_issued (s : State) (c : Nat) (k : Core) : (s.setCore c k).issued = s.issued := rfl
@[simp] theorem State.setCore_lastDue (s : State) (c : Nat) (k : Core) : (s.setCore c k).lastDue = s.lastDue := rfl
@[simp] theorem State.setCore_serial (s : State) (c : Nat) (k : Core) : (s.setCore c k).serial = s.serial := rfl
@[simp] theorem State.setCore_free (s : State) (c : Nat) (k : Core) : (s.setCore c k).free = s.free := rfl
@[simp] theorem State.setCore_mem (s : State) (c : Nat) (k : Core) : (s.setCore c k).mem = s.mem := rfl
@[simp] theorem State.setCore_tags (s : State) (c : Nat) (k : Core) : (s.setCore c k).tags = s.tags := rfl
@[simp] theorem State.setCore_badSectors (s : State) (c : Nat) (k : Core) : (s.setCore c k).badSectors = s.badSectors := rfl
@[simp] theorem State.setCore_badSram (s : State) (c : Nat) (k : Core) : (s.setCore c k).badSram = s.badSram := rfl
@[simp] theorem State.setCore_poisoned (s : State) (c : Nat) (k : Core) : (s.setCore c k).poisoned = s.poisoned := rfl
@[simp] theorem State.setCore_residues (s : State) (c : Nat) (k : Core) : (s.setCore c k).residues = s.residues := rfl
@[simp] theorem State.setCore_persists (s : State) (c : Nat) (k : Core) : (s.setCore c k).persists = s.persists := rfl
@[simp] theorem State.setCore_recreates (s : State) (c : Nat) (k : Core) : (s.setCore c k).recreates = s.recreates := rfl
@[simp] theorem State.setCore_lastRecreate (s : State) (c : Nat) (k : Core) : (s.setCore c k).lastRecreate = s.lastRecreate := rfl
@[simp] theorem State.setCore_recrHeld (s : State) (c : Nat) (k : Core) : (s.setCore c k).recrHeld = s.recrHeld := rfl
@[simp] theorem State.setCore_homeReads (s : State) (c : Nat) (k : Core) : (s.setCore c k).homeReads = s.homeReads := rfl
@[simp] theorem State.setCore_homeAnswers (s : State) (c : Nat) (k : Core) : (s.setCore c k).homeAnswers = s.homeAnswers := rfl
@[simp] theorem State.setCore_toks (s : State) (c : Nat) (k : Core) : (s.setCore c k).toks = s.toks := rfl
@[simp] theorem State.setCore_shadows (s : State) (c : Nat) (k : Core) : (s.setCore c k).shadows = s.shadows := rfl
@[simp] theorem State.setCore_acts (s : State) (c : Nat) (k : Core) : (s.setCore c k).acts = s.acts := rfl
@[simp] theorem State.setCore_deacts (s : State) (c : Nat) (k : Core) : (s.setCore c k).deacts = s.deacts := rfl
@[simp] theorem State.setCore_hostLines (s : State) (c : Nat) (k : Core) : (s.setCore c k).hostLines = s.hostLines := rfl
@[simp] theorem State.setCore_agentAnswers (s : State) (c : Nat) (k : Core) : (s.setCore c k).agentAnswers = s.agentAnswers := rfl
@[simp] theorem State.setCore_hostReads (s : State) (c : Nat) (k : Core) : (s.setCore c k).hostReads = s.hostReads := rfl
@[simp] theorem State.setCore_hostWrites (s : State) (c : Nat) (k : Core) : (s.setCore c k).hostWrites = s.hostWrites := rfl
@[simp] theorem State.setCore_recalls (s : State) (c : Nat) (k : Core) : (s.setCore c k).recalls = s.recalls := rfl
@[simp] theorem State.setCore_hostReqs (s : State) (c : Nat) (k : Core) : (s.setCore c k).hostReqs = s.hostReqs := rfl
@[simp] theorem State.setCore_misses (s : State) (c : Nat) (k : Core) : (s.setCore c k).misses = s.misses := rfl
@[simp] theorem State.setCore_msgs (s : State) (c : Nat) (k : Core) : (s.setCore c k).msgs = s.msgs := rfl
@[simp] theorem State.setCore_ops (s : State) (c : Nat) (k : Core) : (s.setCore c k).ops = s.ops := rfl
@[simp] theorem State.setCore_dies (s : State) (c : Nat) (k : Core) : (s.setCore c k).dies = s.dies := rfl
@[simp] theorem State.setCore_ctxs (s : State) (c : Nat) (k : Core) : (s.setCore c k).ctxs = s.ctxs := rfl
@[simp] theorem State.setCore_launches (s : State) (c : Nat) (k : Core) : (s.setCore c k).launches = s.launches := rfl
@[simp] theorem State.setCore_gangs (s : State) (c : Nat) (k : Core) : (s.setCore c k).gangs = s.gangs := rfl
@[simp] theorem State.setCore_placing (s : State) (c : Nat) (k : Core) : (s.setCore c k).placing = s.placing := rfl
@[simp] theorem State.setCore_queues (s : State) (c : Nat) (k : Core) : (s.setCore c k).queues = s.queues := rfl
@[simp] theorem State.setCore_backing (s : State) (c : Nat) (k : Core) : (s.setCore c k).backing = s.backing := rfl
@[simp] theorem State.setCore_members (s : State) (c : Nat) (k : Core) : (s.setCore c k).members = s.members := rfl
@[simp] theorem State.setCore_matches_ (s : State) (c : Nat) (k : Core) : (s.setCore c k).matches_ = s.matches_ := rfl
@[simp] theorem State.setCore_spanSeen (s : State) (c : Nat) (k : Core) : (s.setCore c k).spanSeen = s.spanSeen := rfl
@[simp] theorem State.setCore_deadLanes (s : State) (c : Nat) (k : Core) : (s.setCore c k).deadLanes = s.deadLanes := rfl
@[simp] theorem State.setCore_deadAdders (s : State) (c : Nat) (k : Core) : (s.setCore c k).deadAdders = s.deadAdders := rfl
@[simp] theorem State.setCore_deadHubs (s : State) (c : Nat) (k : Core) : (s.setCore c k).deadHubs = s.deadHubs := rfl
@[simp] theorem State.setCore_postSets (s : State) (c : Nat) (k : Core) : (s.setCore c k).postSets = s.postSets := rfl
@[simp] theorem State.setCore_xmsgs (s : State) (c : Nat) (k : Core) : (s.setCore c k).xmsgs = s.xmsgs := rfl
@[simp] theorem State.setCore_postQ (s : State) (c : Nat) (k : Core) : (s.setCore c k).postQ = s.postQ := rfl
@[simp] theorem State.setCore_windows (s : State) (c : Nat) (k : Core) : (s.setCore c k).windows = s.windows := rfl
@[simp] theorem State.setCore_ports (s : State) (c : Nat) (k : Core) : (s.setCore c k).ports = s.ports := rfl
@[simp] theorem State.setCore_regs (s : State) (c : Nat) (k : Core) : (s.setCore c k).regs = s.regs := rfl
@[simp] theorem State.setCore_lqTurn (s : State) (c : Nat) (k : Core) : (s.setCore c k).lqTurn = s.lqTurn := rfl
@[simp] theorem State.setDie_agenda (s : State) (d : Nat) (k : Die) : (s.setDie d k).agenda = s.agenda := rfl
@[simp] theorem State.setDie_cur (s : State) (d : Nat) (k : Die) : (s.setDie d k).cur = s.cur := rfl
@[simp] theorem State.setDie_lastUnit (s : State) (d : Nat) (k : Die) : (s.setDie d k).lastUnit = s.lastUnit := rfl
@[simp] theorem State.setDie_issued (s : State) (d : Nat) (k : Die) : (s.setDie d k).issued = s.issued := rfl
@[simp] theorem State.setDie_lastDue (s : State) (d : Nat) (k : Die) : (s.setDie d k).lastDue = s.lastDue := rfl
@[simp] theorem State.setDie_serial (s : State) (d : Nat) (k : Die) : (s.setDie d k).serial = s.serial := rfl
@[simp] theorem State.setDie_free (s : State) (d : Nat) (k : Die) : (s.setDie d k).free = s.free := rfl
@[simp] theorem State.setDie_mem (s : State) (d : Nat) (k : Die) : (s.setDie d k).mem = s.mem := rfl
@[simp] theorem State.setDie_tags (s : State) (d : Nat) (k : Die) : (s.setDie d k).tags = s.tags := rfl
@[simp] theorem State.setDie_badSectors (s : State) (d : Nat) (k : Die) : (s.setDie d k).badSectors = s.badSectors := rfl
@[simp] theorem State.setDie_badSram (s : State) (d : Nat) (k : Die) : (s.setDie d k).badSram = s.badSram := rfl
@[simp] theorem State.setDie_poisoned (s : State) (d : Nat) (k : Die) : (s.setDie d k).poisoned = s.poisoned := rfl
@[simp] theorem State.setDie_residues (s : State) (d : Nat) (k : Die) : (s.setDie d k).residues = s.residues := rfl
@[simp] theorem State.setDie_persists (s : State) (d : Nat) (k : Die) : (s.setDie d k).persists = s.persists := rfl
@[simp] theorem State.setDie_recreates (s : State) (d : Nat) (k : Die) : (s.setDie d k).recreates = s.recreates := rfl
@[simp] theorem State.setDie_lastRecreate (s : State) (d : Nat) (k : Die) : (s.setDie d k).lastRecreate = s.lastRecreate := rfl
@[simp] theorem State.setDie_recrHeld (s : State) (d : Nat) (k : Die) : (s.setDie d k).recrHeld = s.recrHeld := rfl
@[simp] theorem State.setDie_homeReads (s : State) (d : Nat) (k : Die) : (s.setDie d k).homeReads = s.homeReads := rfl
@[simp] theorem State.setDie_homeAnswers (s : State) (d : Nat) (k : Die) : (s.setDie d k).homeAnswers = s.homeAnswers := rfl
@[simp] theorem State.setDie_toks (s : State) (d : Nat) (k : Die) : (s.setDie d k).toks = s.toks := rfl
@[simp] theorem State.setDie_shadows (s : State) (d : Nat) (k : Die) : (s.setDie d k).shadows = s.shadows := rfl
@[simp] theorem State.setDie_acts (s : State) (d : Nat) (k : Die) : (s.setDie d k).acts = s.acts := rfl
@[simp] theorem State.setDie_deacts (s : State) (d : Nat) (k : Die) : (s.setDie d k).deacts = s.deacts := rfl
@[simp] theorem State.setDie_hostLines (s : State) (d : Nat) (k : Die) : (s.setDie d k).hostLines = s.hostLines := rfl
@[simp] theorem State.setDie_agentAnswers (s : State) (d : Nat) (k : Die) : (s.setDie d k).agentAnswers = s.agentAnswers := rfl
@[simp] theorem State.setDie_hostReads (s : State) (d : Nat) (k : Die) : (s.setDie d k).hostReads = s.hostReads := rfl
@[simp] theorem State.setDie_hostWrites (s : State) (d : Nat) (k : Die) : (s.setDie d k).hostWrites = s.hostWrites := rfl
@[simp] theorem State.setDie_recalls (s : State) (d : Nat) (k : Die) : (s.setDie d k).recalls = s.recalls := rfl
@[simp] theorem State.setDie_hostReqs (s : State) (d : Nat) (k : Die) : (s.setDie d k).hostReqs = s.hostReqs := rfl
@[simp] theorem State.setDie_misses (s : State) (d : Nat) (k : Die) : (s.setDie d k).misses = s.misses := rfl
@[simp] theorem State.setDie_msgs (s : State) (d : Nat) (k : Die) : (s.setDie d k).msgs = s.msgs := rfl
@[simp] theorem State.setDie_ops (s : State) (d : Nat) (k : Die) : (s.setDie d k).ops = s.ops := rfl
@[simp] theorem State.setDie_cores (s : State) (d : Nat) (k : Die) : (s.setDie d k).cores = s.cores := rfl
@[simp] theorem State.setDie_ctxs (s : State) (d : Nat) (k : Die) : (s.setDie d k).ctxs = s.ctxs := rfl
@[simp] theorem State.setDie_launches (s : State) (d : Nat) (k : Die) : (s.setDie d k).launches = s.launches := rfl
@[simp] theorem State.setDie_gangs (s : State) (d : Nat) (k : Die) : (s.setDie d k).gangs = s.gangs := rfl
@[simp] theorem State.setDie_placing (s : State) (d : Nat) (k : Die) : (s.setDie d k).placing = s.placing := rfl
@[simp] theorem State.setDie_queues (s : State) (d : Nat) (k : Die) : (s.setDie d k).queues = s.queues := rfl
@[simp] theorem State.setDie_backing (s : State) (d : Nat) (k : Die) : (s.setDie d k).backing = s.backing := rfl
@[simp] theorem State.setDie_members (s : State) (d : Nat) (k : Die) : (s.setDie d k).members = s.members := rfl
@[simp] theorem State.setDie_matches_ (s : State) (d : Nat) (k : Die) : (s.setDie d k).matches_ = s.matches_ := rfl
@[simp] theorem State.setDie_spanSeen (s : State) (d : Nat) (k : Die) : (s.setDie d k).spanSeen = s.spanSeen := rfl
@[simp] theorem State.setDie_deadLanes (s : State) (d : Nat) (k : Die) : (s.setDie d k).deadLanes = s.deadLanes := rfl
@[simp] theorem State.setDie_deadAdders (s : State) (d : Nat) (k : Die) : (s.setDie d k).deadAdders = s.deadAdders := rfl
@[simp] theorem State.setDie_deadHubs (s : State) (d : Nat) (k : Die) : (s.setDie d k).deadHubs = s.deadHubs := rfl
@[simp] theorem State.setDie_postSets (s : State) (d : Nat) (k : Die) : (s.setDie d k).postSets = s.postSets := rfl
@[simp] theorem State.setDie_xmsgs (s : State) (d : Nat) (k : Die) : (s.setDie d k).xmsgs = s.xmsgs := rfl
@[simp] theorem State.setDie_postQ (s : State) (d : Nat) (k : Die) : (s.setDie d k).postQ = s.postQ := rfl
@[simp] theorem State.setDie_windows (s : State) (d : Nat) (k : Die) : (s.setDie d k).windows = s.windows := rfl
@[simp] theorem State.setDie_ports (s : State) (d : Nat) (k : Die) : (s.setDie d k).ports = s.ports := rfl
@[simp] theorem State.setDie_regs (s : State) (d : Nat) (k : Die) : (s.setDie d k).regs = s.regs := rfl
@[simp] theorem State.setDie_lqTurn (s : State) (d : Nat) (k : Die) : (s.setDie d k).lqTurn = s.lqTurn := rfl
@[simp] theorem State.setCtx_agenda (s : State) (x : Nat) (k : Ctx) : (s.setCtx x k).agenda = s.agenda := rfl
@[simp] theorem State.setCtx_cur (s : State) (x : Nat) (k : Ctx) : (s.setCtx x k).cur = s.cur := rfl
@[simp] theorem State.setCtx_lastUnit (s : State) (x : Nat) (k : Ctx) : (s.setCtx x k).lastUnit = s.lastUnit := rfl
@[simp] theorem State.setCtx_issued (s : State) (x : Nat) (k : Ctx) : (s.setCtx x k).issued = s.issued := rfl
@[simp] theorem State.setCtx_lastDue (s : State) (x : Nat) (k : Ctx) : (s.setCtx x k).lastDue = s.lastDue := rfl
@[simp] theorem State.setCtx_serial (s : State) (x : Nat) (k : Ctx) : (s.setCtx x k).serial = s.serial := rfl
@[simp] theorem State.setCtx_free (s : State) (x : Nat) (k : Ctx) : (s.setCtx x k).free = s.free := rfl
@[simp] theorem State.setCtx_mem (s : State) (x : Nat) (k : Ctx) : (s.setCtx x k).mem = s.mem := rfl
@[simp] theorem State.setCtx_tags (s : State) (x : Nat) (k : Ctx) : (s.setCtx x k).tags = s.tags := rfl
@[simp] theorem State.setCtx_badSectors (s : State) (x : Nat) (k : Ctx) : (s.setCtx x k).badSectors = s.badSectors := rfl
@[simp] theorem State.setCtx_badSram (s : State) (x : Nat) (k : Ctx) : (s.setCtx x k).badSram = s.badSram := rfl
@[simp] theorem State.setCtx_poisoned (s : State) (x : Nat) (k : Ctx) : (s.setCtx x k).poisoned = s.poisoned := rfl
@[simp] theorem State.setCtx_residues (s : State) (x : Nat) (k : Ctx) : (s.setCtx x k).residues = s.residues := rfl
@[simp] theorem State.setCtx_persists (s : State) (x : Nat) (k : Ctx) : (s.setCtx x k).persists = s.persists := rfl
@[simp] theorem State.setCtx_recreates (s : State) (x : Nat) (k : Ctx) : (s.setCtx x k).recreates = s.recreates := rfl
@[simp] theorem State.setCtx_lastRecreate (s : State) (x : Nat) (k : Ctx) : (s.setCtx x k).lastRecreate = s.lastRecreate := rfl
@[simp] theorem State.setCtx_recrHeld (s : State) (x : Nat) (k : Ctx) : (s.setCtx x k).recrHeld = s.recrHeld := rfl
@[simp] theorem State.setCtx_homeReads (s : State) (x : Nat) (k : Ctx) : (s.setCtx x k).homeReads = s.homeReads := rfl
@[simp] theorem State.setCtx_homeAnswers (s : State) (x : Nat) (k : Ctx) : (s.setCtx x k).homeAnswers = s.homeAnswers := rfl
@[simp] theorem State.setCtx_toks (s : State) (x : Nat) (k : Ctx) : (s.setCtx x k).toks = s.toks := rfl
@[simp] theorem State.setCtx_shadows (s : State) (x : Nat) (k : Ctx) : (s.setCtx x k).shadows = s.shadows := rfl
@[simp] theorem State.setCtx_acts (s : State) (x : Nat) (k : Ctx) : (s.setCtx x k).acts = s.acts := rfl
@[simp] theorem State.setCtx_deacts (s : State) (x : Nat) (k : Ctx) : (s.setCtx x k).deacts = s.deacts := rfl
@[simp] theorem State.setCtx_hostLines (s : State) (x : Nat) (k : Ctx) : (s.setCtx x k).hostLines = s.hostLines := rfl
@[simp] theorem State.setCtx_agentAnswers (s : State) (x : Nat) (k : Ctx) : (s.setCtx x k).agentAnswers = s.agentAnswers := rfl
@[simp] theorem State.setCtx_hostReads (s : State) (x : Nat) (k : Ctx) : (s.setCtx x k).hostReads = s.hostReads := rfl
@[simp] theorem State.setCtx_hostWrites (s : State) (x : Nat) (k : Ctx) : (s.setCtx x k).hostWrites = s.hostWrites := rfl
@[simp] theorem State.setCtx_recalls (s : State) (x : Nat) (k : Ctx) : (s.setCtx x k).recalls = s.recalls := rfl
@[simp] theorem State.setCtx_hostReqs (s : State) (x : Nat) (k : Ctx) : (s.setCtx x k).hostReqs = s.hostReqs := rfl
@[simp] theorem State.setCtx_misses (s : State) (x : Nat) (k : Ctx) : (s.setCtx x k).misses = s.misses := rfl
@[simp] theorem State.setCtx_msgs (s : State) (x : Nat) (k : Ctx) : (s.setCtx x k).msgs = s.msgs := rfl
@[simp] theorem State.setCtx_ops (s : State) (x : Nat) (k : Ctx) : (s.setCtx x k).ops = s.ops := rfl
@[simp] theorem State.setCtx_dies (s : State) (x : Nat) (k : Ctx) : (s.setCtx x k).dies = s.dies := rfl
@[simp] theorem State.setCtx_cores (s : State) (x : Nat) (k : Ctx) : (s.setCtx x k).cores = s.cores := rfl
@[simp] theorem State.setCtx_launches (s : State) (x : Nat) (k : Ctx) : (s.setCtx x k).launches = s.launches := rfl
@[simp] theorem State.setCtx_gangs (s : State) (x : Nat) (k : Ctx) : (s.setCtx x k).gangs = s.gangs := rfl
@[simp] theorem State.setCtx_placing (s : State) (x : Nat) (k : Ctx) : (s.setCtx x k).placing = s.placing := rfl
@[simp] theorem State.setCtx_queues (s : State) (x : Nat) (k : Ctx) : (s.setCtx x k).queues = s.queues := rfl
@[simp] theorem State.setCtx_backing (s : State) (x : Nat) (k : Ctx) : (s.setCtx x k).backing = s.backing := rfl
@[simp] theorem State.setCtx_members (s : State) (x : Nat) (k : Ctx) : (s.setCtx x k).members = s.members := rfl
@[simp] theorem State.setCtx_matches_ (s : State) (x : Nat) (k : Ctx) : (s.setCtx x k).matches_ = s.matches_ := rfl
@[simp] theorem State.setCtx_spanSeen (s : State) (x : Nat) (k : Ctx) : (s.setCtx x k).spanSeen = s.spanSeen := rfl
@[simp] theorem State.setCtx_deadLanes (s : State) (x : Nat) (k : Ctx) : (s.setCtx x k).deadLanes = s.deadLanes := rfl
@[simp] theorem State.setCtx_deadAdders (s : State) (x : Nat) (k : Ctx) : (s.setCtx x k).deadAdders = s.deadAdders := rfl
@[simp] theorem State.setCtx_deadHubs (s : State) (x : Nat) (k : Ctx) : (s.setCtx x k).deadHubs = s.deadHubs := rfl
@[simp] theorem State.setCtx_postSets (s : State) (x : Nat) (k : Ctx) : (s.setCtx x k).postSets = s.postSets := rfl
@[simp] theorem State.setCtx_xmsgs (s : State) (x : Nat) (k : Ctx) : (s.setCtx x k).xmsgs = s.xmsgs := rfl
@[simp] theorem State.setCtx_postQ (s : State) (x : Nat) (k : Ctx) : (s.setCtx x k).postQ = s.postQ := rfl
@[simp] theorem State.setCtx_windows (s : State) (x : Nat) (k : Ctx) : (s.setCtx x k).windows = s.windows := rfl
@[simp] theorem State.setCtx_ports (s : State) (x : Nat) (k : Ctx) : (s.setCtx x k).ports = s.ports := rfl
@[simp] theorem State.setCtx_regs (s : State) (x : Nat) (k : Ctx) : (s.setCtx x k).regs = s.regs := rfl
@[simp] theorem State.setCtx_lqTurn (s : State) (x : Nat) (k : Ctx) : (s.setCtx x k).lqTurn = s.lqTurn := rfl
@[simp] theorem State.setMerged_agenda (s : State) (a : Nat) (b : Byte) : (s.setMerged a b).agenda = s.agenda := rfl
@[simp] theorem State.setMerged_cur (s : State) (a : Nat) (b : Byte) : (s.setMerged a b).cur = s.cur := rfl
@[simp] theorem State.setMerged_lastUnit (s : State) (a : Nat) (b : Byte) : (s.setMerged a b).lastUnit = s.lastUnit := rfl
@[simp] theorem State.setMerged_issued (s : State) (a : Nat) (b : Byte) : (s.setMerged a b).issued = s.issued := rfl
@[simp] theorem State.setMerged_lastDue (s : State) (a : Nat) (b : Byte) : (s.setMerged a b).lastDue = s.lastDue := rfl
@[simp] theorem State.setMerged_serial (s : State) (a : Nat) (b : Byte) : (s.setMerged a b).serial = s.serial := rfl
@[simp] theorem State.setMerged_free (s : State) (a : Nat) (b : Byte) : (s.setMerged a b).free = s.free := rfl
@[simp] theorem State.setMerged_tags (s : State) (a : Nat) (b : Byte) : (s.setMerged a b).tags = s.tags := rfl
@[simp] theorem State.setMerged_badSectors (s : State) (a : Nat) (b : Byte) : (s.setMerged a b).badSectors = s.badSectors := rfl
@[simp] theorem State.setMerged_badSram (s : State) (a : Nat) (b : Byte) : (s.setMerged a b).badSram = s.badSram := rfl
@[simp] theorem State.setMerged_poisoned (s : State) (a : Nat) (b : Byte) : (s.setMerged a b).poisoned = s.poisoned := rfl
@[simp] theorem State.setMerged_residues (s : State) (a : Nat) (b : Byte) : (s.setMerged a b).residues = s.residues := rfl
@[simp] theorem State.setMerged_persists (s : State) (a : Nat) (b : Byte) : (s.setMerged a b).persists = s.persists := rfl
@[simp] theorem State.setMerged_recreates (s : State) (a : Nat) (b : Byte) : (s.setMerged a b).recreates = s.recreates := rfl
@[simp] theorem State.setMerged_lastRecreate (s : State) (a : Nat) (b : Byte) : (s.setMerged a b).lastRecreate = s.lastRecreate := rfl
@[simp] theorem State.setMerged_recrHeld (s : State) (a : Nat) (b : Byte) : (s.setMerged a b).recrHeld = s.recrHeld := rfl
@[simp] theorem State.setMerged_homeReads (s : State) (a : Nat) (b : Byte) : (s.setMerged a b).homeReads = s.homeReads := rfl
@[simp] theorem State.setMerged_homeAnswers (s : State) (a : Nat) (b : Byte) : (s.setMerged a b).homeAnswers = s.homeAnswers := rfl
@[simp] theorem State.setMerged_toks (s : State) (a : Nat) (b : Byte) : (s.setMerged a b).toks = s.toks := rfl
@[simp] theorem State.setMerged_shadows (s : State) (a : Nat) (b : Byte) : (s.setMerged a b).shadows = s.shadows := rfl
@[simp] theorem State.setMerged_acts (s : State) (a : Nat) (b : Byte) : (s.setMerged a b).acts = s.acts := rfl
@[simp] theorem State.setMerged_deacts (s : State) (a : Nat) (b : Byte) : (s.setMerged a b).deacts = s.deacts := rfl
@[simp] theorem State.setMerged_hostLines (s : State) (a : Nat) (b : Byte) : (s.setMerged a b).hostLines = s.hostLines := rfl
@[simp] theorem State.setMerged_agentAnswers (s : State) (a : Nat) (b : Byte) : (s.setMerged a b).agentAnswers = s.agentAnswers := rfl
@[simp] theorem State.setMerged_hostReads (s : State) (a : Nat) (b : Byte) : (s.setMerged a b).hostReads = s.hostReads := rfl
@[simp] theorem State.setMerged_hostWrites (s : State) (a : Nat) (b : Byte) : (s.setMerged a b).hostWrites = s.hostWrites := rfl
@[simp] theorem State.setMerged_recalls (s : State) (a : Nat) (b : Byte) : (s.setMerged a b).recalls = s.recalls := rfl
@[simp] theorem State.setMerged_hostReqs (s : State) (a : Nat) (b : Byte) : (s.setMerged a b).hostReqs = s.hostReqs := rfl
@[simp] theorem State.setMerged_misses (s : State) (a : Nat) (b : Byte) : (s.setMerged a b).misses = s.misses := rfl
@[simp] theorem State.setMerged_msgs (s : State) (a : Nat) (b : Byte) : (s.setMerged a b).msgs = s.msgs := rfl
@[simp] theorem State.setMerged_ops (s : State) (a : Nat) (b : Byte) : (s.setMerged a b).ops = s.ops := rfl
@[simp] theorem State.setMerged_dies (s : State) (a : Nat) (b : Byte) : (s.setMerged a b).dies = s.dies := rfl
@[simp] theorem State.setMerged_cores (s : State) (a : Nat) (b : Byte) : (s.setMerged a b).cores = s.cores := rfl
@[simp] theorem State.setMerged_ctxs (s : State) (a : Nat) (b : Byte) : (s.setMerged a b).ctxs = s.ctxs := rfl
@[simp] theorem State.setMerged_launches (s : State) (a : Nat) (b : Byte) : (s.setMerged a b).launches = s.launches := rfl
@[simp] theorem State.setMerged_gangs (s : State) (a : Nat) (b : Byte) : (s.setMerged a b).gangs = s.gangs := rfl
@[simp] theorem State.setMerged_placing (s : State) (a : Nat) (b : Byte) : (s.setMerged a b).placing = s.placing := rfl
@[simp] theorem State.setMerged_queues (s : State) (a : Nat) (b : Byte) : (s.setMerged a b).queues = s.queues := rfl
@[simp] theorem State.setMerged_backing (s : State) (a : Nat) (b : Byte) : (s.setMerged a b).backing = s.backing := rfl
@[simp] theorem State.setMerged_members (s : State) (a : Nat) (b : Byte) : (s.setMerged a b).members = s.members := rfl
@[simp] theorem State.setMerged_matches_ (s : State) (a : Nat) (b : Byte) : (s.setMerged a b).matches_ = s.matches_ := rfl
@[simp] theorem State.setMerged_spanSeen (s : State) (a : Nat) (b : Byte) : (s.setMerged a b).spanSeen = s.spanSeen := rfl
@[simp] theorem State.setMerged_deadLanes (s : State) (a : Nat) (b : Byte) : (s.setMerged a b).deadLanes = s.deadLanes := rfl
@[simp] theorem State.setMerged_deadAdders (s : State) (a : Nat) (b : Byte) : (s.setMerged a b).deadAdders = s.deadAdders := rfl
@[simp] theorem State.setMerged_deadHubs (s : State) (a : Nat) (b : Byte) : (s.setMerged a b).deadHubs = s.deadHubs := rfl
@[simp] theorem State.setMerged_postSets (s : State) (a : Nat) (b : Byte) : (s.setMerged a b).postSets = s.postSets := rfl
@[simp] theorem State.setMerged_xmsgs (s : State) (a : Nat) (b : Byte) : (s.setMerged a b).xmsgs = s.xmsgs := rfl
@[simp] theorem State.setMerged_postQ (s : State) (a : Nat) (b : Byte) : (s.setMerged a b).postQ = s.postQ := rfl
@[simp] theorem State.setMerged_windows (s : State) (a : Nat) (b : Byte) : (s.setMerged a b).windows = s.windows := rfl
@[simp] theorem State.setMerged_ports (s : State) (a : Nat) (b : Byte) : (s.setMerged a b).ports = s.ports := rfl
@[simp] theorem State.setMerged_regs (s : State) (a : Nat) (b : Byte) : (s.setMerged a b).regs = s.regs := rfl
@[simp] theorem State.setMerged_lqTurn (s : State) (a : Nat) (b : Byte) : (s.setMerged a b).lqTurn = s.lqTurn := rfl
@[simp] theorem State.setGrp_agenda (s : State) (c g : Nat) (x : Group) : (s.setGrp c g x).agenda = s.agenda := rfl
@[simp] theorem State.setGrp_cur (s : State) (c g : Nat) (x : Group) : (s.setGrp c g x).cur = s.cur := rfl
@[simp] theorem State.setGrp_lastUnit (s : State) (c g : Nat) (x : Group) : (s.setGrp c g x).lastUnit = s.lastUnit := rfl
@[simp] theorem State.setGrp_issued (s : State) (c g : Nat) (x : Group) : (s.setGrp c g x).issued = s.issued := rfl
@[simp] theorem State.setGrp_lastDue (s : State) (c g : Nat) (x : Group) : (s.setGrp c g x).lastDue = s.lastDue := rfl
@[simp] theorem State.setGrp_serial (s : State) (c g : Nat) (x : Group) : (s.setGrp c g x).serial = s.serial := rfl
@[simp] theorem State.setGrp_free (s : State) (c g : Nat) (x : Group) : (s.setGrp c g x).free = s.free := rfl
@[simp] theorem State.setGrp_mem (s : State) (c g : Nat) (x : Group) : (s.setGrp c g x).mem = s.mem := rfl
@[simp] theorem State.setGrp_tags (s : State) (c g : Nat) (x : Group) : (s.setGrp c g x).tags = s.tags := rfl
@[simp] theorem State.setGrp_badSectors (s : State) (c g : Nat) (x : Group) : (s.setGrp c g x).badSectors = s.badSectors := rfl
@[simp] theorem State.setGrp_badSram (s : State) (c g : Nat) (x : Group) : (s.setGrp c g x).badSram = s.badSram := rfl
@[simp] theorem State.setGrp_poisoned (s : State) (c g : Nat) (x : Group) : (s.setGrp c g x).poisoned = s.poisoned := rfl
@[simp] theorem State.setGrp_residues (s : State) (c g : Nat) (x : Group) : (s.setGrp c g x).residues = s.residues := rfl
@[simp] theorem State.setGrp_persists (s : State) (c g : Nat) (x : Group) : (s.setGrp c g x).persists = s.persists := rfl
@[simp] theorem State.setGrp_recreates (s : State) (c g : Nat) (x : Group) : (s.setGrp c g x).recreates = s.recreates := rfl
@[simp] theorem State.setGrp_lastRecreate (s : State) (c g : Nat) (x : Group) : (s.setGrp c g x).lastRecreate = s.lastRecreate := rfl
@[simp] theorem State.setGrp_recrHeld (s : State) (c g : Nat) (x : Group) : (s.setGrp c g x).recrHeld = s.recrHeld := rfl
@[simp] theorem State.setGrp_homeReads (s : State) (c g : Nat) (x : Group) : (s.setGrp c g x).homeReads = s.homeReads := rfl
@[simp] theorem State.setGrp_homeAnswers (s : State) (c g : Nat) (x : Group) : (s.setGrp c g x).homeAnswers = s.homeAnswers := rfl
@[simp] theorem State.setGrp_toks (s : State) (c g : Nat) (x : Group) : (s.setGrp c g x).toks = s.toks := rfl
@[simp] theorem State.setGrp_shadows (s : State) (c g : Nat) (x : Group) : (s.setGrp c g x).shadows = s.shadows := rfl
@[simp] theorem State.setGrp_acts (s : State) (c g : Nat) (x : Group) : (s.setGrp c g x).acts = s.acts := rfl
@[simp] theorem State.setGrp_deacts (s : State) (c g : Nat) (x : Group) : (s.setGrp c g x).deacts = s.deacts := rfl
@[simp] theorem State.setGrp_hostLines (s : State) (c g : Nat) (x : Group) : (s.setGrp c g x).hostLines = s.hostLines := rfl
@[simp] theorem State.setGrp_agentAnswers (s : State) (c g : Nat) (x : Group) : (s.setGrp c g x).agentAnswers = s.agentAnswers := rfl
@[simp] theorem State.setGrp_hostReads (s : State) (c g : Nat) (x : Group) : (s.setGrp c g x).hostReads = s.hostReads := rfl
@[simp] theorem State.setGrp_hostWrites (s : State) (c g : Nat) (x : Group) : (s.setGrp c g x).hostWrites = s.hostWrites := rfl
@[simp] theorem State.setGrp_recalls (s : State) (c g : Nat) (x : Group) : (s.setGrp c g x).recalls = s.recalls := rfl
@[simp] theorem State.setGrp_hostReqs (s : State) (c g : Nat) (x : Group) : (s.setGrp c g x).hostReqs = s.hostReqs := rfl
@[simp] theorem State.setGrp_misses (s : State) (c g : Nat) (x : Group) : (s.setGrp c g x).misses = s.misses := rfl
@[simp] theorem State.setGrp_msgs (s : State) (c g : Nat) (x : Group) : (s.setGrp c g x).msgs = s.msgs := rfl
@[simp] theorem State.setGrp_ops (s : State) (c g : Nat) (x : Group) : (s.setGrp c g x).ops = s.ops := rfl
@[simp] theorem State.setGrp_dies (s : State) (c g : Nat) (x : Group) : (s.setGrp c g x).dies = s.dies := rfl
@[simp] theorem State.setGrp_ctxs (s : State) (c g : Nat) (x : Group) : (s.setGrp c g x).ctxs = s.ctxs := rfl
@[simp] theorem State.setGrp_launches (s : State) (c g : Nat) (x : Group) : (s.setGrp c g x).launches = s.launches := rfl
@[simp] theorem State.setGrp_gangs (s : State) (c g : Nat) (x : Group) : (s.setGrp c g x).gangs = s.gangs := rfl
@[simp] theorem State.setGrp_placing (s : State) (c g : Nat) (x : Group) : (s.setGrp c g x).placing = s.placing := rfl
@[simp] theorem State.setGrp_queues (s : State) (c g : Nat) (x : Group) : (s.setGrp c g x).queues = s.queues := rfl
@[simp] theorem State.setGrp_backing (s : State) (c g : Nat) (x : Group) : (s.setGrp c g x).backing = s.backing := rfl
@[simp] theorem State.setGrp_members (s : State) (c g : Nat) (x : Group) : (s.setGrp c g x).members = s.members := rfl
@[simp] theorem State.setGrp_matches_ (s : State) (c g : Nat) (x : Group) : (s.setGrp c g x).matches_ = s.matches_ := rfl
@[simp] theorem State.setGrp_spanSeen (s : State) (c g : Nat) (x : Group) : (s.setGrp c g x).spanSeen = s.spanSeen := rfl
@[simp] theorem State.setGrp_deadLanes (s : State) (c g : Nat) (x : Group) : (s.setGrp c g x).deadLanes = s.deadLanes := rfl
@[simp] theorem State.setGrp_deadAdders (s : State) (c g : Nat) (x : Group) : (s.setGrp c g x).deadAdders = s.deadAdders := rfl
@[simp] theorem State.setGrp_deadHubs (s : State) (c g : Nat) (x : Group) : (s.setGrp c g x).deadHubs = s.deadHubs := rfl
@[simp] theorem State.setGrp_postSets (s : State) (c g : Nat) (x : Group) : (s.setGrp c g x).postSets = s.postSets := rfl
@[simp] theorem State.setGrp_xmsgs (s : State) (c g : Nat) (x : Group) : (s.setGrp c g x).xmsgs = s.xmsgs := rfl
@[simp] theorem State.setGrp_postQ (s : State) (c g : Nat) (x : Group) : (s.setGrp c g x).postQ = s.postQ := rfl
@[simp] theorem State.setGrp_windows (s : State) (c g : Nat) (x : Group) : (s.setGrp c g x).windows = s.windows := rfl
@[simp] theorem State.setGrp_ports (s : State) (c g : Nat) (x : Group) : (s.setGrp c g x).ports = s.ports := rfl
@[simp] theorem State.setGrp_regs (s : State) (c g : Nat) (x : Group) : (s.setGrp c g x).regs = s.regs := rfl
@[simp] theorem State.setGrp_lqTurn (s : State) (c g : Nat) (x : Group) : (s.setGrp c g x).lqTurn = s.lqTurn := rfl

/-! ### `Core.setGrp`, `Core.lsWrite` -/

@[simp] theorem Core.setGrp_ctx (k : Core) (g : Nat) (x : Group) : (k.setGrp g x).ctx = k.ctx := rfl
@[simp] theorem Core.setGrp_split (k : Core) (g : Nat) (x : Group) : (k.setGrp g x).split = k.split := rfl
@[simp] theorem Core.setGrp_half (k : Core) (g : Nat) (x : Group) : (k.setGrp g x).half = k.half := rfl
@[simp] theorem Core.setGrp_stacked (k : Core) (g : Nat) (x : Group) : (k.setGrp g x).stacked = k.stacked := rfl
@[simp] theorem Core.setGrp_gated (k : Core) (g : Nat) (x : Group) : (k.setGrp g x).gated = k.gated := rfl
@[simp] theorem Core.setGrp_halted (k : Core) (g : Nat) (x : Group) : (k.setGrp g x).halted = k.halted := rfl
@[simp] theorem Core.setGrp_wgs (k : Core) (g : Nat) (x : Group) : (k.setGrp g x).wgs = k.wgs := rfl
@[simp] theorem Core.setGrp_pstore (k : Core) (g : Nat) (x : Group) : (k.setGrp g x).pstore = k.pstore := rfl
@[simp] theorem Core.setGrp_programs (k : Core) (g : Nat) (x : Group) : (k.setGrp g x).programs = k.programs := rfl
@[simp] theorem Core.setGrp_ls (k : Core) (g : Nat) (x : Group) : (k.setGrp g x).ls = k.ls := rfl
@[simp] theorem Core.setGrp_halves (k : Core) (g : Nat) (x : Group) : (k.setGrp g x).halves = k.halves := rfl
@[simp] theorem Core.setGrp_narrow (k : Core) (g : Nat) (x : Group) : (k.setGrp g x).narrow = k.narrow := rfl
@[simp] theorem Core.setGrp_accs (k : Core) (g : Nat) (x : Group) : (k.setGrp g x).accs = k.accs := rfl
@[simp] theorem Core.setGrp_weights (k : Core) (g : Nat) (x : Group) : (k.setGrp g x).weights = k.weights := rfl
@[simp] theorem Core.setGrp_perm (k : Core) (g : Nat) (x : Group) : (k.setGrp g x).perm = k.perm := rfl
@[simp] theorem Core.setGrp_tiles (k : Core) (g : Nat) (x : Group) : (k.setGrp g x).tiles = k.tiles := rfl
@[simp] theorem Core.setGrp_wctx (k : Core) (g : Nat) (x : Group) : (k.setGrp g x).wctx = k.wctx := rfl
@[simp] theorem Core.setGrp_mqueue (k : Core) (g : Nat) (x : Group) : (k.setGrp g x).mqueue = k.mqueue := rfl
@[simp] theorem Core.setGrp_streams (k : Core) (g : Nat) (x : Group) : (k.setGrp g x).streams = k.streams := rfl
@[simp] theorem Core.setGrp_mseq (k : Core) (g : Nat) (x : Group) : (k.setGrp g x).mseq = k.mseq := rfl
@[simp] theorem Core.setGrp_cseq (k : Core) (g : Nat) (x : Group) : (k.setGrp g x).cseq = k.cseq := rfl
@[simp] theorem Core.setGrp_loadQ (k : Core) (g : Nat) (x : Group) : (k.setGrp g x).loadQ = k.loadQ := rfl
@[simp] theorem Core.setGrp_storeQ (k : Core) (g : Nat) (x : Group) : (k.setGrp g x).storeQ = k.storeQ := rfl
@[simp] theorem Core.setGrp_arrivals (k : Core) (g : Nat) (x : Group) : (k.setGrp g x).arrivals = k.arrivals := rfl
@[simp] theorem Core.setGrp_l1 (k : Core) (g : Nat) (x : Group) : (k.setGrp g x).l1 = k.l1 := rfl
@[simp] theorem Core.setGrp_tlb (k : Core) (g : Nat) (x : Group) : (k.setGrp g x).tlb = k.tlb := rfl
@[simp] theorem Core.setGrp_faults (k : Core) (g : Nat) (x : Group) : (k.setGrp g x).faults = k.faults := rfl
@[simp] theorem Core.setGrp_slots (k : Core) (g : Nat) (x : Group) : (k.setGrp g x).slots = k.slots := rfl
@[simp] theorem Core.setGrp_redirect (k : Core) (g : Nat) (x : Group) : (k.setGrp g x).redirect = k.redirect := rfl
@[simp] theorem Core.setGrp_lastTaken (k : Core) (g : Nat) (x : Group) : (k.setGrp g x).lastTaken = k.lastTaken := rfl
@[simp] theorem Core.setGrp_progress (k : Core) (g : Nat) (x : Group) : (k.setGrp g x).progress = k.progress := rfl
@[simp] theorem Core.lsWrite_ctx (k : Core) (l : List (Nat × Byte)) : (k.lsWrite l).ctx = k.ctx := rfl
@[simp] theorem Core.lsWrite_split (k : Core) (l : List (Nat × Byte)) : (k.lsWrite l).split = k.split := rfl
@[simp] theorem Core.lsWrite_half (k : Core) (l : List (Nat × Byte)) : (k.lsWrite l).half = k.half := rfl
@[simp] theorem Core.lsWrite_stacked (k : Core) (l : List (Nat × Byte)) : (k.lsWrite l).stacked = k.stacked := rfl
@[simp] theorem Core.lsWrite_gated (k : Core) (l : List (Nat × Byte)) : (k.lsWrite l).gated = k.gated := rfl
@[simp] theorem Core.lsWrite_halted (k : Core) (l : List (Nat × Byte)) : (k.lsWrite l).halted = k.halted := rfl
@[simp] theorem Core.lsWrite_groups (k : Core) (l : List (Nat × Byte)) : (k.lsWrite l).groups = k.groups := rfl
@[simp] theorem Core.lsWrite_wgs (k : Core) (l : List (Nat × Byte)) : (k.lsWrite l).wgs = k.wgs := rfl
@[simp] theorem Core.lsWrite_pstore (k : Core) (l : List (Nat × Byte)) : (k.lsWrite l).pstore = k.pstore := rfl
@[simp] theorem Core.lsWrite_programs (k : Core) (l : List (Nat × Byte)) : (k.lsWrite l).programs = k.programs := rfl
@[simp] theorem Core.lsWrite_halves (k : Core) (l : List (Nat × Byte)) : (k.lsWrite l).halves = k.halves := rfl
@[simp] theorem Core.lsWrite_narrow (k : Core) (l : List (Nat × Byte)) : (k.lsWrite l).narrow = k.narrow := rfl
@[simp] theorem Core.lsWrite_accs (k : Core) (l : List (Nat × Byte)) : (k.lsWrite l).accs = k.accs := rfl
@[simp] theorem Core.lsWrite_weights (k : Core) (l : List (Nat × Byte)) : (k.lsWrite l).weights = k.weights := rfl
@[simp] theorem Core.lsWrite_perm (k : Core) (l : List (Nat × Byte)) : (k.lsWrite l).perm = k.perm := rfl
@[simp] theorem Core.lsWrite_tiles (k : Core) (l : List (Nat × Byte)) : (k.lsWrite l).tiles = k.tiles := rfl
@[simp] theorem Core.lsWrite_wctx (k : Core) (l : List (Nat × Byte)) : (k.lsWrite l).wctx = k.wctx := rfl
@[simp] theorem Core.lsWrite_mqueue (k : Core) (l : List (Nat × Byte)) : (k.lsWrite l).mqueue = k.mqueue := rfl
@[simp] theorem Core.lsWrite_streams (k : Core) (l : List (Nat × Byte)) : (k.lsWrite l).streams = k.streams := rfl
@[simp] theorem Core.lsWrite_mseq (k : Core) (l : List (Nat × Byte)) : (k.lsWrite l).mseq = k.mseq := rfl
@[simp] theorem Core.lsWrite_cseq (k : Core) (l : List (Nat × Byte)) : (k.lsWrite l).cseq = k.cseq := rfl
@[simp] theorem Core.lsWrite_loadQ (k : Core) (l : List (Nat × Byte)) : (k.lsWrite l).loadQ = k.loadQ := rfl
@[simp] theorem Core.lsWrite_storeQ (k : Core) (l : List (Nat × Byte)) : (k.lsWrite l).storeQ = k.storeQ := rfl
@[simp] theorem Core.lsWrite_arrivals (k : Core) (l : List (Nat × Byte)) : (k.lsWrite l).arrivals = k.arrivals := rfl
@[simp] theorem Core.lsWrite_l1 (k : Core) (l : List (Nat × Byte)) : (k.lsWrite l).l1 = k.l1 := rfl
@[simp] theorem Core.lsWrite_tlb (k : Core) (l : List (Nat × Byte)) : (k.lsWrite l).tlb = k.tlb := rfl
@[simp] theorem Core.lsWrite_faults (k : Core) (l : List (Nat × Byte)) : (k.lsWrite l).faults = k.faults := rfl
@[simp] theorem Core.lsWrite_slots (k : Core) (l : List (Nat × Byte)) : (k.lsWrite l).slots = k.slots := rfl
@[simp] theorem Core.lsWrite_redirect (k : Core) (l : List (Nat × Byte)) : (k.lsWrite l).redirect = k.redirect := rfl
@[simp] theorem Core.lsWrite_lastTaken (k : Core) (l : List (Nat × Byte)) : (k.lsWrite l).lastTaken = k.lastTaken := rfl
@[simp] theorem Core.lsWrite_progress (k : Core) (l : List (Nat × Byte)) : (k.lsWrite l).progress = k.progress := rfl

/-! ### `Group.vset`, `Group.sset`, `Group.pset`, `Group.setPend`, `Group.clearPend`, `Group.sticky` -/

@[simp] theorem Group.vset_uid (g : Group) (r L : Nat) (x : Word) : (g.vset r L x).uid = g.uid := rfl
@[simp] theorem Group.vset_ctx (g : Group) (r L : Nat) (x : Word) : (g.vset r L x).ctx = g.ctx := rfl
@[simp] theorem Group.vset_wg (g : Group) (r L : Nat) (x : Word) : (g.vset r L x).wg = g.wg := rfl
@[simp] theorem Group.vset_gid (g : Group) (r L : Nat) (x : Word) : (g.vset r L x).gid = g.gid := rfl
@[simp] theorem Group.vset_nregs (g : Group) (r L : Nat) (x : Word) : (g.vset r L x).nregs = g.nregs := rfl
@[simp] theorem Group.vset_block (g : Group) (r L : Nat) (x : Word) : (g.vset r L x).block = g.block := rfl
@[simp] theorem Group.vset_p (g : Group) (r L : Nat) (x : Word) : (g.vset r L x).p = g.p := rfl
@[simp] theorem Group.vset_sregs (g : Group) (r L : Nat) (x : Word) : (g.vset r L x).sregs = g.sregs := rfl
@[simp] theorem Group.vset_pend (g : Group) (r L : Nat) (x : Word) : (g.vset r L x).pend = g.pend := rfl
@[simp] theorem Group.vset_exited (g : Group) (r L : Nat) (x : Word) : (g.vset r L x).exited = g.exited := rfl
@[simp] theorem Group.vset_triggered (g : Group) (r L : Nat) (x : Word) : (g.vset r L x).triggered = g.triggered := rfl
@[simp] theorem Group.vset_sat (g : Group) (r L : Nat) (x : Word) : (g.vset r L x).sat = g.sat := rfl
@[simp] theorem Group.vset_sup (g : Group) (r L : Nat) (x : Word) : (g.vset r L x).sup = g.sup := rfl
@[simp] theorem Group.vset_pfdrop (g : Group) (r L : Nat) (x : Word) : (g.vset r L x).pfdrop = g.pfdrop := rfl
@[simp] theorem Group.vset_trapcause (g : Group) (r L : Nat) (x : Word) : (g.vset r L x).trapcause = g.trapcause := rfl
@[simp] theorem Group.vset_trapmask (g : Group) (r L : Nat) (x : Word) : (g.vset r L x).trapmask = g.trapmask := rfl
@[simp] theorem Group.vset_trapaddr (g : Group) (r L : Nat) (x : Word) : (g.vset r L x).trapaddr = g.trapaddr := rfl
@[simp] theorem Group.vset_trapsplit (g : Group) (r L : Nat) (x : Word) : (g.vset r L x).trapsplit = g.trapsplit := rfl
@[simp] theorem Group.vset_entryMask (g : Group) (r L : Nat) (x : Word) : (g.vset r L x).entryMask = g.entryMask := rfl
@[simp] theorem Group.vset_handlerSlot (g : Group) (r L : Nat) (x : Word) : (g.vset r L x).handlerSlot = g.handlerSlot := rfl
@[simp] theorem Group.vset_entryFence (g : Group) (r L : Nat) (x : Word) : (g.vset r L x).entryFence = g.entryFence := rfl
@[simp] theorem Group.vset_trapPend (g : Group) (r L : Nat) (x : Word) : (g.vset r L x).trapPend = g.trapPend := rfl
@[simp] theorem Group.vset_deferred (g : Group) (r L : Nat) (x : Word) : (g.vset r L x).deferred = g.deferred := rfl
@[simp] theorem Group.vset_slots (g : Group) (r L : Nat) (x : Word) : (g.vset r L x).slots = g.slots := rfl
@[simp] theorem Group.vset_spill (g : Group) (r L : Nat) (x : Word) : (g.vset r L x).spill = g.spill := rfl
@[simp] theorem Group.vset_frames (g : Group) (r L : Nat) (x : Word) : (g.vset r L x).frames = g.frames := rfl
@[simp] theorem Group.vset_park (g : Group) (r L : Nat) (x : Word) : (g.vset r L x).park = g.park := rfl
@[simp] theorem Group.vset_parkMark (g : Group) (r L : Nat) (x : Word) : (g.vset r L x).parkMark = g.parkMark := rfl
@[simp] theorem Group.vset_stall (g : Group) (r L : Nat) (x : Word) : (g.vset r L x).stall = g.stall := rfl
@[simp] theorem Group.vset_newCopies (g : Group) (r L : Nat) (x : Word) : (g.vset r L x).newCopies = g.newCopies := rfl
@[simp] theorem Group.vset_batches (g : Group) (r L : Nat) (x : Word) : (g.vset r L x).batches = g.batches := rfl
@[simp] theorem Group.vset_waited (g : Group) (r L : Nat) (x : Word) : (g.vset r L x).waited = g.waited := rfl
@[simp] theorem Group.vset_collNext (g : Group) (r L : Nat) (x : Word) : (g.vset r L x).collNext = g.collNext := rfl
@[simp] theorem Group.vset_countSent (g : Group) (r L : Nat) (x : Word) : (g.vset r L x).countSent = g.countSent := rfl
@[simp] theorem Group.vset_trigUpto (g : Group) (r L : Nat) (x : Word) : (g.vset r L x).trigUpto = g.trigUpto := rfl
@[simp] theorem Group.vset_ident (g : Group) (r L : Nat) (x : Word) : (g.vset r L x).ident = g.ident := rfl
@[simp] theorem Group.vset_report (g : Group) (r L : Nat) (x : Word) : (g.vset r L x).report = g.report := rfl
@[simp] theorem Group.sset_uid (g : Group) (r : Nat) (x : Word) : (g.sset r x).uid = g.uid := rfl
@[simp] theorem Group.sset_ctx (g : Group) (r : Nat) (x : Word) : (g.sset r x).ctx = g.ctx := rfl
@[simp] theorem Group.sset_wg (g : Group) (r : Nat) (x : Word) : (g.sset r x).wg = g.wg := rfl
@[simp] theorem Group.sset_gid (g : Group) (r : Nat) (x : Word) : (g.sset r x).gid = g.gid := rfl
@[simp] theorem Group.sset_nregs (g : Group) (r : Nat) (x : Word) : (g.sset r x).nregs = g.nregs := rfl
@[simp] theorem Group.sset_block (g : Group) (r : Nat) (x : Word) : (g.sset r x).block = g.block := rfl
@[simp] theorem Group.sset_v (g : Group) (r : Nat) (x : Word) : (g.sset r x).v = g.v := rfl
@[simp] theorem Group.sset_p (g : Group) (r : Nat) (x : Word) : (g.sset r x).p = g.p := rfl
@[simp] theorem Group.sset_pend (g : Group) (r : Nat) (x : Word) : (g.sset r x).pend = g.pend := rfl
@[simp] theorem Group.sset_exited (g : Group) (r : Nat) (x : Word) : (g.sset r x).exited = g.exited := rfl
@[simp] theorem Group.sset_triggered (g : Group) (r : Nat) (x : Word) : (g.sset r x).triggered = g.triggered := rfl
@[simp] theorem Group.sset_sat (g : Group) (r : Nat) (x : Word) : (g.sset r x).sat = g.sat := rfl
@[simp] theorem Group.sset_sup (g : Group) (r : Nat) (x : Word) : (g.sset r x).sup = g.sup := rfl
@[simp] theorem Group.sset_pfdrop (g : Group) (r : Nat) (x : Word) : (g.sset r x).pfdrop = g.pfdrop := rfl
@[simp] theorem Group.sset_trapcause (g : Group) (r : Nat) (x : Word) : (g.sset r x).trapcause = g.trapcause := rfl
@[simp] theorem Group.sset_trapmask (g : Group) (r : Nat) (x : Word) : (g.sset r x).trapmask = g.trapmask := rfl
@[simp] theorem Group.sset_trapaddr (g : Group) (r : Nat) (x : Word) : (g.sset r x).trapaddr = g.trapaddr := rfl
@[simp] theorem Group.sset_trapsplit (g : Group) (r : Nat) (x : Word) : (g.sset r x).trapsplit = g.trapsplit := rfl
@[simp] theorem Group.sset_entryMask (g : Group) (r : Nat) (x : Word) : (g.sset r x).entryMask = g.entryMask := rfl
@[simp] theorem Group.sset_handlerSlot (g : Group) (r : Nat) (x : Word) : (g.sset r x).handlerSlot = g.handlerSlot := rfl
@[simp] theorem Group.sset_entryFence (g : Group) (r : Nat) (x : Word) : (g.sset r x).entryFence = g.entryFence := rfl
@[simp] theorem Group.sset_trapPend (g : Group) (r : Nat) (x : Word) : (g.sset r x).trapPend = g.trapPend := rfl
@[simp] theorem Group.sset_deferred (g : Group) (r : Nat) (x : Word) : (g.sset r x).deferred = g.deferred := rfl
@[simp] theorem Group.sset_slots (g : Group) (r : Nat) (x : Word) : (g.sset r x).slots = g.slots := rfl
@[simp] theorem Group.sset_spill (g : Group) (r : Nat) (x : Word) : (g.sset r x).spill = g.spill := rfl
@[simp] theorem Group.sset_frames (g : Group) (r : Nat) (x : Word) : (g.sset r x).frames = g.frames := rfl
@[simp] theorem Group.sset_park (g : Group) (r : Nat) (x : Word) : (g.sset r x).park = g.park := rfl
@[simp] theorem Group.sset_parkMark (g : Group) (r : Nat) (x : Word) : (g.sset r x).parkMark = g.parkMark := rfl
@[simp] theorem Group.sset_stall (g : Group) (r : Nat) (x : Word) : (g.sset r x).stall = g.stall := rfl
@[simp] theorem Group.sset_newCopies (g : Group) (r : Nat) (x : Word) : (g.sset r x).newCopies = g.newCopies := rfl
@[simp] theorem Group.sset_batches (g : Group) (r : Nat) (x : Word) : (g.sset r x).batches = g.batches := rfl
@[simp] theorem Group.sset_waited (g : Group) (r : Nat) (x : Word) : (g.sset r x).waited = g.waited := rfl
@[simp] theorem Group.sset_collNext (g : Group) (r : Nat) (x : Word) : (g.sset r x).collNext = g.collNext := rfl
@[simp] theorem Group.sset_countSent (g : Group) (r : Nat) (x : Word) : (g.sset r x).countSent = g.countSent := rfl
@[simp] theorem Group.sset_trigUpto (g : Group) (r : Nat) (x : Word) : (g.sset r x).trigUpto = g.trigUpto := rfl
@[simp] theorem Group.sset_ident (g : Group) (r : Nat) (x : Word) : (g.sset r x).ident = g.ident := rfl
@[simp] theorem Group.sset_report (g : Group) (r : Nat) (x : Word) : (g.sset r x).report = g.report := rfl
@[simp] theorem Group.pset_uid (g : Group) (n : Nat) (m : Mask) : (g.pset n m).uid = g.uid := rfl
@[simp] theorem Group.pset_ctx (g : Group) (n : Nat) (m : Mask) : (g.pset n m).ctx = g.ctx := rfl
@[simp] theorem Group.pset_wg (g : Group) (n : Nat) (m : Mask) : (g.pset n m).wg = g.wg := rfl
@[simp] theorem Group.pset_gid (g : Group) (n : Nat) (m : Mask) : (g.pset n m).gid = g.gid := rfl
@[simp] theorem Group.pset_nregs (g : Group) (n : Nat) (m : Mask) : (g.pset n m).nregs = g.nregs := rfl
@[simp] theorem Group.pset_block (g : Group) (n : Nat) (m : Mask) : (g.pset n m).block = g.block := rfl
@[simp] theorem Group.pset_v (g : Group) (n : Nat) (m : Mask) : (g.pset n m).v = g.v := rfl
@[simp] theorem Group.pset_sregs (g : Group) (n : Nat) (m : Mask) : (g.pset n m).sregs = g.sregs := rfl
@[simp] theorem Group.pset_pend (g : Group) (n : Nat) (m : Mask) : (g.pset n m).pend = g.pend := rfl
@[simp] theorem Group.pset_exited (g : Group) (n : Nat) (m : Mask) : (g.pset n m).exited = g.exited := rfl
@[simp] theorem Group.pset_triggered (g : Group) (n : Nat) (m : Mask) : (g.pset n m).triggered = g.triggered := rfl
@[simp] theorem Group.pset_sat (g : Group) (n : Nat) (m : Mask) : (g.pset n m).sat = g.sat := rfl
@[simp] theorem Group.pset_sup (g : Group) (n : Nat) (m : Mask) : (g.pset n m).sup = g.sup := rfl
@[simp] theorem Group.pset_pfdrop (g : Group) (n : Nat) (m : Mask) : (g.pset n m).pfdrop = g.pfdrop := rfl
@[simp] theorem Group.pset_trapcause (g : Group) (n : Nat) (m : Mask) : (g.pset n m).trapcause = g.trapcause := rfl
@[simp] theorem Group.pset_trapmask (g : Group) (n : Nat) (m : Mask) : (g.pset n m).trapmask = g.trapmask := rfl
@[simp] theorem Group.pset_trapaddr (g : Group) (n : Nat) (m : Mask) : (g.pset n m).trapaddr = g.trapaddr := rfl
@[simp] theorem Group.pset_trapsplit (g : Group) (n : Nat) (m : Mask) : (g.pset n m).trapsplit = g.trapsplit := rfl
@[simp] theorem Group.pset_entryMask (g : Group) (n : Nat) (m : Mask) : (g.pset n m).entryMask = g.entryMask := rfl
@[simp] theorem Group.pset_handlerSlot (g : Group) (n : Nat) (m : Mask) : (g.pset n m).handlerSlot = g.handlerSlot := rfl
@[simp] theorem Group.pset_entryFence (g : Group) (n : Nat) (m : Mask) : (g.pset n m).entryFence = g.entryFence := rfl
@[simp] theorem Group.pset_trapPend (g : Group) (n : Nat) (m : Mask) : (g.pset n m).trapPend = g.trapPend := rfl
@[simp] theorem Group.pset_deferred (g : Group) (n : Nat) (m : Mask) : (g.pset n m).deferred = g.deferred := rfl
@[simp] theorem Group.pset_slots (g : Group) (n : Nat) (m : Mask) : (g.pset n m).slots = g.slots := rfl
@[simp] theorem Group.pset_spill (g : Group) (n : Nat) (m : Mask) : (g.pset n m).spill = g.spill := rfl
@[simp] theorem Group.pset_frames (g : Group) (n : Nat) (m : Mask) : (g.pset n m).frames = g.frames := rfl
@[simp] theorem Group.pset_park (g : Group) (n : Nat) (m : Mask) : (g.pset n m).park = g.park := rfl
@[simp] theorem Group.pset_parkMark (g : Group) (n : Nat) (m : Mask) : (g.pset n m).parkMark = g.parkMark := rfl
@[simp] theorem Group.pset_stall (g : Group) (n : Nat) (m : Mask) : (g.pset n m).stall = g.stall := rfl
@[simp] theorem Group.pset_newCopies (g : Group) (n : Nat) (m : Mask) : (g.pset n m).newCopies = g.newCopies := rfl
@[simp] theorem Group.pset_batches (g : Group) (n : Nat) (m : Mask) : (g.pset n m).batches = g.batches := rfl
@[simp] theorem Group.pset_waited (g : Group) (n : Nat) (m : Mask) : (g.pset n m).waited = g.waited := rfl
@[simp] theorem Group.pset_collNext (g : Group) (n : Nat) (m : Mask) : (g.pset n m).collNext = g.collNext := rfl
@[simp] theorem Group.pset_countSent (g : Group) (n : Nat) (m : Mask) : (g.pset n m).countSent = g.countSent := rfl
@[simp] theorem Group.pset_trigUpto (g : Group) (n : Nat) (m : Mask) : (g.pset n m).trigUpto = g.trigUpto := rfl
@[simp] theorem Group.pset_ident (g : Group) (n : Nat) (m : Mask) : (g.pset n m).ident = g.ident := rfl
@[simp] theorem Group.pset_report (g : Group) (n : Nat) (m : Mask) : (g.pset n m).report = g.report := rfl
@[simp] theorem Group.setPend_uid (g : Group) (r n : Nat) : (g.setPend r n).uid = g.uid := rfl
@[simp] theorem Group.setPend_ctx (g : Group) (r n : Nat) : (g.setPend r n).ctx = g.ctx := rfl
@[simp] theorem Group.setPend_wg (g : Group) (r n : Nat) : (g.setPend r n).wg = g.wg := rfl
@[simp] theorem Group.setPend_gid (g : Group) (r n : Nat) : (g.setPend r n).gid = g.gid := rfl
@[simp] theorem Group.setPend_nregs (g : Group) (r n : Nat) : (g.setPend r n).nregs = g.nregs := rfl
@[simp] theorem Group.setPend_block (g : Group) (r n : Nat) : (g.setPend r n).block = g.block := rfl
@[simp] theorem Group.setPend_v (g : Group) (r n : Nat) : (g.setPend r n).v = g.v := rfl
@[simp] theorem Group.setPend_p (g : Group) (r n : Nat) : (g.setPend r n).p = g.p := rfl
@[simp] theorem Group.setPend_sregs (g : Group) (r n : Nat) : (g.setPend r n).sregs = g.sregs := rfl
@[simp] theorem Group.setPend_exited (g : Group) (r n : Nat) : (g.setPend r n).exited = g.exited := rfl
@[simp] theorem Group.setPend_triggered (g : Group) (r n : Nat) : (g.setPend r n).triggered = g.triggered := rfl
@[simp] theorem Group.setPend_sat (g : Group) (r n : Nat) : (g.setPend r n).sat = g.sat := rfl
@[simp] theorem Group.setPend_sup (g : Group) (r n : Nat) : (g.setPend r n).sup = g.sup := rfl
@[simp] theorem Group.setPend_pfdrop (g : Group) (r n : Nat) : (g.setPend r n).pfdrop = g.pfdrop := rfl
@[simp] theorem Group.setPend_trapcause (g : Group) (r n : Nat) : (g.setPend r n).trapcause = g.trapcause := rfl
@[simp] theorem Group.setPend_trapmask (g : Group) (r n : Nat) : (g.setPend r n).trapmask = g.trapmask := rfl
@[simp] theorem Group.setPend_trapaddr (g : Group) (r n : Nat) : (g.setPend r n).trapaddr = g.trapaddr := rfl
@[simp] theorem Group.setPend_trapsplit (g : Group) (r n : Nat) : (g.setPend r n).trapsplit = g.trapsplit := rfl
@[simp] theorem Group.setPend_entryMask (g : Group) (r n : Nat) : (g.setPend r n).entryMask = g.entryMask := rfl
@[simp] theorem Group.setPend_handlerSlot (g : Group) (r n : Nat) : (g.setPend r n).handlerSlot = g.handlerSlot := rfl
@[simp] theorem Group.setPend_entryFence (g : Group) (r n : Nat) : (g.setPend r n).entryFence = g.entryFence := rfl
@[simp] theorem Group.setPend_trapPend (g : Group) (r n : Nat) : (g.setPend r n).trapPend = g.trapPend := rfl
@[simp] theorem Group.setPend_deferred (g : Group) (r n : Nat) : (g.setPend r n).deferred = g.deferred := rfl
@[simp] theorem Group.setPend_slots (g : Group) (r n : Nat) : (g.setPend r n).slots = g.slots := rfl
@[simp] theorem Group.setPend_spill (g : Group) (r n : Nat) : (g.setPend r n).spill = g.spill := rfl
@[simp] theorem Group.setPend_frames (g : Group) (r n : Nat) : (g.setPend r n).frames = g.frames := rfl
@[simp] theorem Group.setPend_park (g : Group) (r n : Nat) : (g.setPend r n).park = g.park := rfl
@[simp] theorem Group.setPend_parkMark (g : Group) (r n : Nat) : (g.setPend r n).parkMark = g.parkMark := rfl
@[simp] theorem Group.setPend_stall (g : Group) (r n : Nat) : (g.setPend r n).stall = g.stall := rfl
@[simp] theorem Group.setPend_newCopies (g : Group) (r n : Nat) : (g.setPend r n).newCopies = g.newCopies := rfl
@[simp] theorem Group.setPend_batches (g : Group) (r n : Nat) : (g.setPend r n).batches = g.batches := rfl
@[simp] theorem Group.setPend_waited (g : Group) (r n : Nat) : (g.setPend r n).waited = g.waited := rfl
@[simp] theorem Group.setPend_collNext (g : Group) (r n : Nat) : (g.setPend r n).collNext = g.collNext := rfl
@[simp] theorem Group.setPend_countSent (g : Group) (r n : Nat) : (g.setPend r n).countSent = g.countSent := rfl
@[simp] theorem Group.setPend_trigUpto (g : Group) (r n : Nat) : (g.setPend r n).trigUpto = g.trigUpto := rfl
@[simp] theorem Group.setPend_ident (g : Group) (r n : Nat) : (g.setPend r n).ident = g.ident := rfl
@[simp] theorem Group.setPend_report (g : Group) (r n : Nat) : (g.setPend r n).report = g.report := rfl
@[simp] theorem Group.clearPend_uid (g : Group) (r n : Nat) : (g.clearPend r n).uid = g.uid := rfl
@[simp] theorem Group.clearPend_ctx (g : Group) (r n : Nat) : (g.clearPend r n).ctx = g.ctx := rfl
@[simp] theorem Group.clearPend_wg (g : Group) (r n : Nat) : (g.clearPend r n).wg = g.wg := rfl
@[simp] theorem Group.clearPend_gid (g : Group) (r n : Nat) : (g.clearPend r n).gid = g.gid := rfl
@[simp] theorem Group.clearPend_nregs (g : Group) (r n : Nat) : (g.clearPend r n).nregs = g.nregs := rfl
@[simp] theorem Group.clearPend_block (g : Group) (r n : Nat) : (g.clearPend r n).block = g.block := rfl
@[simp] theorem Group.clearPend_v (g : Group) (r n : Nat) : (g.clearPend r n).v = g.v := rfl
@[simp] theorem Group.clearPend_p (g : Group) (r n : Nat) : (g.clearPend r n).p = g.p := rfl
@[simp] theorem Group.clearPend_sregs (g : Group) (r n : Nat) : (g.clearPend r n).sregs = g.sregs := rfl
@[simp] theorem Group.clearPend_exited (g : Group) (r n : Nat) : (g.clearPend r n).exited = g.exited := rfl
@[simp] theorem Group.clearPend_triggered (g : Group) (r n : Nat) : (g.clearPend r n).triggered = g.triggered := rfl
@[simp] theorem Group.clearPend_sat (g : Group) (r n : Nat) : (g.clearPend r n).sat = g.sat := rfl
@[simp] theorem Group.clearPend_sup (g : Group) (r n : Nat) : (g.clearPend r n).sup = g.sup := rfl
@[simp] theorem Group.clearPend_pfdrop (g : Group) (r n : Nat) : (g.clearPend r n).pfdrop = g.pfdrop := rfl
@[simp] theorem Group.clearPend_trapcause (g : Group) (r n : Nat) : (g.clearPend r n).trapcause = g.trapcause := rfl
@[simp] theorem Group.clearPend_trapmask (g : Group) (r n : Nat) : (g.clearPend r n).trapmask = g.trapmask := rfl
@[simp] theorem Group.clearPend_trapaddr (g : Group) (r n : Nat) : (g.clearPend r n).trapaddr = g.trapaddr := rfl
@[simp] theorem Group.clearPend_trapsplit (g : Group) (r n : Nat) : (g.clearPend r n).trapsplit = g.trapsplit := rfl
@[simp] theorem Group.clearPend_entryMask (g : Group) (r n : Nat) : (g.clearPend r n).entryMask = g.entryMask := rfl
@[simp] theorem Group.clearPend_handlerSlot (g : Group) (r n : Nat) : (g.clearPend r n).handlerSlot = g.handlerSlot := rfl
@[simp] theorem Group.clearPend_entryFence (g : Group) (r n : Nat) : (g.clearPend r n).entryFence = g.entryFence := rfl
@[simp] theorem Group.clearPend_trapPend (g : Group) (r n : Nat) : (g.clearPend r n).trapPend = g.trapPend := rfl
@[simp] theorem Group.clearPend_deferred (g : Group) (r n : Nat) : (g.clearPend r n).deferred = g.deferred := rfl
@[simp] theorem Group.clearPend_slots (g : Group) (r n : Nat) : (g.clearPend r n).slots = g.slots := rfl
@[simp] theorem Group.clearPend_spill (g : Group) (r n : Nat) : (g.clearPend r n).spill = g.spill := rfl
@[simp] theorem Group.clearPend_frames (g : Group) (r n : Nat) : (g.clearPend r n).frames = g.frames := rfl
@[simp] theorem Group.clearPend_park (g : Group) (r n : Nat) : (g.clearPend r n).park = g.park := rfl
@[simp] theorem Group.clearPend_parkMark (g : Group) (r n : Nat) : (g.clearPend r n).parkMark = g.parkMark := rfl
@[simp] theorem Group.clearPend_stall (g : Group) (r n : Nat) : (g.clearPend r n).stall = g.stall := rfl
@[simp] theorem Group.clearPend_newCopies (g : Group) (r n : Nat) : (g.clearPend r n).newCopies = g.newCopies := rfl
@[simp] theorem Group.clearPend_batches (g : Group) (r n : Nat) : (g.clearPend r n).batches = g.batches := rfl
@[simp] theorem Group.clearPend_waited (g : Group) (r n : Nat) : (g.clearPend r n).waited = g.waited := rfl
@[simp] theorem Group.clearPend_collNext (g : Group) (r n : Nat) : (g.clearPend r n).collNext = g.collNext := rfl
@[simp] theorem Group.clearPend_countSent (g : Group) (r n : Nat) : (g.clearPend r n).countSent = g.countSent := rfl
@[simp] theorem Group.clearPend_trigUpto (g : Group) (r n : Nat) : (g.clearPend r n).trigUpto = g.trigUpto := rfl
@[simp] theorem Group.clearPend_ident (g : Group) (r n : Nat) : (g.clearPend r n).ident = g.ident := rfl
@[simp] theorem Group.clearPend_report (g : Group) (r n : Nat) : (g.clearPend r n).report = g.report := rfl
@[simp] theorem Group.sticky_uid (g : Group) (k : Mask) (f : Nat → Bool) : (g.sticky k f).uid = g.uid := rfl
@[simp] theorem Group.sticky_ctx (g : Group) (k : Mask) (f : Nat → Bool) : (g.sticky k f).ctx = g.ctx := rfl
@[simp] theorem Group.sticky_wg (g : Group) (k : Mask) (f : Nat → Bool) : (g.sticky k f).wg = g.wg := rfl
@[simp] theorem Group.sticky_gid (g : Group) (k : Mask) (f : Nat → Bool) : (g.sticky k f).gid = g.gid := rfl
@[simp] theorem Group.sticky_nregs (g : Group) (k : Mask) (f : Nat → Bool) : (g.sticky k f).nregs = g.nregs := rfl
@[simp] theorem Group.sticky_block (g : Group) (k : Mask) (f : Nat → Bool) : (g.sticky k f).block = g.block := rfl
@[simp] theorem Group.sticky_v (g : Group) (k : Mask) (f : Nat → Bool) : (g.sticky k f).v = g.v := rfl
@[simp] theorem Group.sticky_p (g : Group) (k : Mask) (f : Nat → Bool) : (g.sticky k f).p = g.p := rfl
@[simp] theorem Group.sticky_sregs (g : Group) (k : Mask) (f : Nat → Bool) : (g.sticky k f).sregs = g.sregs := rfl
@[simp] theorem Group.sticky_pend (g : Group) (k : Mask) (f : Nat → Bool) : (g.sticky k f).pend = g.pend := rfl
@[simp] theorem Group.sticky_exited (g : Group) (k : Mask) (f : Nat → Bool) : (g.sticky k f).exited = g.exited := rfl
@[simp] theorem Group.sticky_triggered (g : Group) (k : Mask) (f : Nat → Bool) : (g.sticky k f).triggered = g.triggered := rfl
@[simp] theorem Group.sticky_sup (g : Group) (k : Mask) (f : Nat → Bool) : (g.sticky k f).sup = g.sup := rfl
@[simp] theorem Group.sticky_pfdrop (g : Group) (k : Mask) (f : Nat → Bool) : (g.sticky k f).pfdrop = g.pfdrop := rfl
@[simp] theorem Group.sticky_trapcause (g : Group) (k : Mask) (f : Nat → Bool) : (g.sticky k f).trapcause = g.trapcause := rfl
@[simp] theorem Group.sticky_trapmask (g : Group) (k : Mask) (f : Nat → Bool) : (g.sticky k f).trapmask = g.trapmask := rfl
@[simp] theorem Group.sticky_trapaddr (g : Group) (k : Mask) (f : Nat → Bool) : (g.sticky k f).trapaddr = g.trapaddr := rfl
@[simp] theorem Group.sticky_trapsplit (g : Group) (k : Mask) (f : Nat → Bool) : (g.sticky k f).trapsplit = g.trapsplit := rfl
@[simp] theorem Group.sticky_entryMask (g : Group) (k : Mask) (f : Nat → Bool) : (g.sticky k f).entryMask = g.entryMask := rfl
@[simp] theorem Group.sticky_handlerSlot (g : Group) (k : Mask) (f : Nat → Bool) : (g.sticky k f).handlerSlot = g.handlerSlot := rfl
@[simp] theorem Group.sticky_entryFence (g : Group) (k : Mask) (f : Nat → Bool) : (g.sticky k f).entryFence = g.entryFence := rfl
@[simp] theorem Group.sticky_trapPend (g : Group) (k : Mask) (f : Nat → Bool) : (g.sticky k f).trapPend = g.trapPend := rfl
@[simp] theorem Group.sticky_deferred (g : Group) (k : Mask) (f : Nat → Bool) : (g.sticky k f).deferred = g.deferred := rfl
@[simp] theorem Group.sticky_slots (g : Group) (k : Mask) (f : Nat → Bool) : (g.sticky k f).slots = g.slots := rfl
@[simp] theorem Group.sticky_spill (g : Group) (k : Mask) (f : Nat → Bool) : (g.sticky k f).spill = g.spill := rfl
@[simp] theorem Group.sticky_frames (g : Group) (k : Mask) (f : Nat → Bool) : (g.sticky k f).frames = g.frames := rfl
@[simp] theorem Group.sticky_park (g : Group) (k : Mask) (f : Nat → Bool) : (g.sticky k f).park = g.park := rfl
@[simp] theorem Group.sticky_parkMark (g : Group) (k : Mask) (f : Nat → Bool) : (g.sticky k f).parkMark = g.parkMark := rfl
@[simp] theorem Group.sticky_stall (g : Group) (k : Mask) (f : Nat → Bool) : (g.sticky k f).stall = g.stall := rfl
@[simp] theorem Group.sticky_newCopies (g : Group) (k : Mask) (f : Nat → Bool) : (g.sticky k f).newCopies = g.newCopies := rfl
@[simp] theorem Group.sticky_batches (g : Group) (k : Mask) (f : Nat → Bool) : (g.sticky k f).batches = g.batches := rfl
@[simp] theorem Group.sticky_waited (g : Group) (k : Mask) (f : Nat → Bool) : (g.sticky k f).waited = g.waited := rfl
@[simp] theorem Group.sticky_collNext (g : Group) (k : Mask) (f : Nat → Bool) : (g.sticky k f).collNext = g.collNext := rfl
@[simp] theorem Group.sticky_countSent (g : Group) (k : Mask) (f : Nat → Bool) : (g.sticky k f).countSent = g.countSent := rfl
@[simp] theorem Group.sticky_trigUpto (g : Group) (k : Mask) (f : Nat → Bool) : (g.sticky k f).trigUpto = g.trigUpto := rfl
@[simp] theorem Group.sticky_ident (g : Group) (k : Mask) (f : Nat → Bool) : (g.sticky k f).ident = g.ident := rfl
@[simp] theorem Group.sticky_report (g : Group) (k : Mask) (f : Nat → Bool) : (g.sticky k f).report = g.report := rfl
@[simp] theorem Group.tick_uid (g : Group) (i : Option Nat) : (g.tick i).uid = g.uid := rfl
@[simp] theorem Group.tick_ctx (g : Group) (i : Option Nat) : (g.tick i).ctx = g.ctx := rfl
@[simp] theorem Group.tick_wg (g : Group) (i : Option Nat) : (g.tick i).wg = g.wg := rfl
@[simp] theorem Group.tick_gid (g : Group) (i : Option Nat) : (g.tick i).gid = g.gid := rfl
@[simp] theorem Group.tick_nregs (g : Group) (i : Option Nat) : (g.tick i).nregs = g.nregs := rfl
@[simp] theorem Group.tick_block (g : Group) (i : Option Nat) : (g.tick i).block = g.block := rfl
@[simp] theorem Group.tick_v (g : Group) (i : Option Nat) : (g.tick i).v = g.v := rfl
@[simp] theorem Group.tick_p (g : Group) (i : Option Nat) : (g.tick i).p = g.p := rfl
@[simp] theorem Group.tick_sregs (g : Group) (i : Option Nat) : (g.tick i).sregs = g.sregs := rfl
@[simp] theorem Group.tick_pend (g : Group) (i : Option Nat) : (g.tick i).pend = g.pend := rfl
@[simp] theorem Group.tick_exited (g : Group) (i : Option Nat) : (g.tick i).exited = g.exited := rfl
@[simp] theorem Group.tick_triggered (g : Group) (i : Option Nat) : (g.tick i).triggered = g.triggered := rfl
@[simp] theorem Group.tick_sat (g : Group) (i : Option Nat) : (g.tick i).sat = g.sat := rfl
@[simp] theorem Group.tick_sup (g : Group) (i : Option Nat) : (g.tick i).sup = g.sup := rfl
@[simp] theorem Group.tick_pfdrop (g : Group) (i : Option Nat) : (g.tick i).pfdrop = g.pfdrop := rfl
@[simp] theorem Group.tick_trapcause (g : Group) (i : Option Nat) : (g.tick i).trapcause = g.trapcause := rfl
@[simp] theorem Group.tick_trapmask (g : Group) (i : Option Nat) : (g.tick i).trapmask = g.trapmask := rfl
@[simp] theorem Group.tick_trapaddr (g : Group) (i : Option Nat) : (g.tick i).trapaddr = g.trapaddr := rfl
@[simp] theorem Group.tick_trapsplit (g : Group) (i : Option Nat) : (g.tick i).trapsplit = g.trapsplit := rfl
@[simp] theorem Group.tick_entryMask (g : Group) (i : Option Nat) : (g.tick i).entryMask = g.entryMask := rfl
@[simp] theorem Group.tick_handlerSlot (g : Group) (i : Option Nat) : (g.tick i).handlerSlot = g.handlerSlot := rfl
@[simp] theorem Group.tick_entryFence (g : Group) (i : Option Nat) : (g.tick i).entryFence = g.entryFence := rfl
@[simp] theorem Group.tick_trapPend (g : Group) (i : Option Nat) : (g.tick i).trapPend = g.trapPend := rfl
@[simp] theorem Group.tick_deferred (g : Group) (i : Option Nat) : (g.tick i).deferred = g.deferred := rfl
@[simp] theorem Group.tick_frames (g : Group) (i : Option Nat) : (g.tick i).frames = g.frames := rfl
@[simp] theorem Group.tick_park (g : Group) (i : Option Nat) : (g.tick i).park = g.park := rfl
@[simp] theorem Group.tick_parkMark (g : Group) (i : Option Nat) : (g.tick i).parkMark = g.parkMark := rfl
@[simp] theorem Group.tick_stall (g : Group) (i : Option Nat) : (g.tick i).stall = g.stall := rfl
@[simp] theorem Group.tick_newCopies (g : Group) (i : Option Nat) : (g.tick i).newCopies = g.newCopies := rfl
@[simp] theorem Group.tick_batches (g : Group) (i : Option Nat) : (g.tick i).batches = g.batches := rfl
@[simp] theorem Group.tick_waited (g : Group) (i : Option Nat) : (g.tick i).waited = g.waited := rfl
@[simp] theorem Group.tick_collNext (g : Group) (i : Option Nat) : (g.tick i).collNext = g.collNext := rfl
@[simp] theorem Group.tick_countSent (g : Group) (i : Option Nat) : (g.tick i).countSent = g.countSent := rfl
@[simp] theorem Group.tick_trigUpto (g : Group) (i : Option Nat) : (g.tick i).trigUpto = g.trigUpto := rfl
@[simp] theorem Group.tick_ident (g : Group) (i : Option Nat) : (g.tick i).ident = g.ident := rfl
@[simp] theorem Group.tick_report (g : Group) (i : Option Nat) : (g.tick i).report = g.report := rfl

/-! ### Reading after writing -/

theorem State.core_setCore (s : State) (c j : Nat) (k : Core) : (s.setCore c k).core j = if j = c then k else s.core j := SMap.get_put ({} : Core) s.cores c j k

theorem State.die_setDie (s : State) (d j : Nat) (k : Die) : (s.setDie d k).die j = if j = d then k else s.die j := SMap.get_put ({} : Die) s.dies d j k

theorem State.ctx_setCtx (s : State) (x j : Nat) (k : Ctx) : (s.setCtx x k).ctx j = if j = x then k else s.ctx j := SMap.get_put ({} : Ctx) s.ctxs x j k

@[simp] theorem State.core_setDie (s : State) (d j : Nat) (k : Die) : (s.setDie d k).core j = s.core j := rfl
@[simp] theorem State.core_setCtx (s : State) (x j : Nat) (k : Ctx) : (s.setCtx x k).core j = s.core j := rfl
@[simp] theorem State.core_setMerged (s : State) (a j : Nat) (b : Byte) : (s.setMerged a b).core j = s.core j := rfl
@[simp] theorem State.die_setCore (s : State) (c j : Nat) (k : Core) : (s.setCore c k).die j = s.die j := rfl
@[simp] theorem State.die_setCtx (s : State) (x j : Nat) (k : Ctx) : (s.setCtx x k).die j = s.die j := rfl
@[simp] theorem State.die_setMerged (s : State) (a j : Nat) (b : Byte) : (s.setMerged a b).die j = s.die j := rfl
@[simp] theorem State.die_setGrp (s : State) (c g j : Nat) (x : Group) : (s.setGrp c g x).die j = s.die j := rfl
@[simp] theorem State.ctx_setCore (s : State) (c j : Nat) (k : Core) : (s.setCore c k).ctx j = s.ctx j := rfl
@[simp] theorem State.ctx_setDie (s : State) (d j : Nat) (k : Die) : (s.setDie d k).ctx j = s.ctx j := rfl
@[simp] theorem State.ctx_setMerged (s : State) (a j : Nat) (b : Byte) : (s.setMerged a b).ctx j = s.ctx j := rfl
@[simp] theorem State.ctx_setGrp (s : State) (c g j : Nat) (x : Group) : (s.setGrp c g x).ctx j = s.ctx j := rfl

/-- Writing a group changes that group alone. -/
theorem State.grp_setGrp (s : State) (c g j n : Nat) (x : Group) :
    (s.setGrp c g x).grp j n = if j = c ∧ n = g then some x else s.grp j n := by
  simp only [State.grp, State.setGrp, State.core_setCore]
  by_cases hj : j = c
  · subst hj
    simp only [if_true, Core.setGrp, SMap.look_put, true_and]
  · simp [hj]

/-- Writing a workgroup changes that workgroup alone. -/
theorem State.wgOf_setWg (s : State) (c w j n : Nat) (x : Workgroup) :
    (s.setWg c w x).wgOf j n = if j = c ∧ n = w then some x else s.wgOf j n := by
  simp only [State.wgOf, State.setWg, State.core_setCore]
  by_cases hj : j = c
  · subst hj
    simp only [if_true, SMap.look_put, true_and]
  · simp [hj]

@[simp] theorem State.wgOf_setGrp (s : State) (c g j n : Nat) (x : Group) : (s.setGrp c g x).wgOf j n = s.wgOf j n := by
  simp only [State.wgOf, State.setGrp, State.core_setCore]
  split <;> simp_all

/-- Writing a group changes no local store. -/
@[simp] theorem State.ls_setGrp (s : State) (c g j : Nat) (x : Group) : ((s.setGrp c g x).core j).ls = (s.core j).ls := by
  simp only [State.setGrp, State.core_setCore]
  split <;> simp_all

@[simp] theorem State.dieView_setGrp (s : State) (c g d a : Nat) (x : Group) : (s.setGrp c g x).dieView d a = s.dieView d a := rfl

theorem Group.vget_vset (g : Group) (r L q M : Nat) (x : Word) :
    (g.vset r L x).vget q M = if q = r ∧ M = L then x else g.vget q M := by
  simp only [Group.vget, Group.vset, SMap.get_set]
  by_cases hq : q = r
  · subst hq
    simp only [if_true, SMap.get_set, true_and]
  · simp [hq]

theorem Group.sget_sset (g : Group) (r q : Nat) (x : Word) : (g.sset r x).sget q = if q = r then x else g.sget q :=
  SMap.get_set 0 g.sregs r q x

theorem Group.pget_pset (g : Group) (n q : Nat) (m : Mask) : (g.pset n m).pget q = if q = n then m else g.pget q :=
  SMap.get_set 0 g.p n q m

@[simp] theorem Group.sget_vset (g : Group) (r L q : Nat) (x : Word) : (g.vset r L x).sget q = g.sget q := rfl
@[simp] theorem Group.pget_vset (g : Group) (r L q : Nat) (x : Word) : (g.vset r L x).pget q = g.pget q := rfl
@[simp] theorem Group.vget_sset (g : Group) (r q M : Nat) (x : Word) : (g.sset r x).vget q M = g.vget q M := rfl
@[simp] theorem Group.pget_sset (g : Group) (r q : Nat) (x : Word) : (g.sset r x).pget q = g.pget q := rfl
@[simp] theorem Group.vget_pset (g : Group) (n q M : Nat) (m : Mask) : (g.pset n m).vget q M = g.vget q M := rfl
@[simp] theorem Group.sget_pset (g : Group) (n q : Nat) (m : Mask) : (g.pset n m).sget q = g.sget q := rfl
@[simp] theorem Group.vget_sticky (g : Group) (k : Mask) (f : Nat → Bool) (q M : Nat) : (g.sticky k f).vget q M = g.vget q M := rfl
@[simp] theorem Group.sget_sticky (g : Group) (k : Mask) (f : Nat → Bool) (q : Nat) : (g.sticky k f).sget q = g.sget q := rfl
@[simp] theorem Group.pget_sticky (g : Group) (k : Mask) (f : Nat → Bool) (q : Nat) : (g.sticky k f).pget q = g.pget q := rfl

theorem Group.mem_setPend (g : Group) (r n q : Nat) : q ∈ (g.setPend r n).pend ↔ q ∈ g.pend ∨ (r ≤ q ∧ q < r + n) := by
  simp only [Group.setPend, fromN, List.mem_append, List.mem_filter, List.mem_map, List.mem_range]
  constructor
  · rintro (h | ⟨⟨k, hk, rfl⟩, -⟩)
    · exact .inl h
    · exact .inr ⟨by omega, by omega⟩
  · rintro (h | ⟨h1, h2⟩)
    · exact .inl h
    · by_cases hq : q ∈ g.pend
      · exact .inl hq
      · exact .inr ⟨⟨q - r, by omega, by omega⟩, by simpa using hq⟩

theorem Group.mem_clearPend (g : Group) (r n q : Nat) : q ∈ (g.clearPend r n).pend ↔ q ∈ g.pend ∧ ¬ (r ≤ q ∧ q < r + n) := by
  simp only [Group.clearPend, List.mem_filter, Bool.not_eq_true', Bool.and_eq_false_iff, decide_eq_false_iff_not]
  constructor
  · rintro ⟨h, h'⟩
    exact ⟨h, by rintro ⟨a, b⟩; rcases h' with h' | h' <;> omega⟩
  · rintro ⟨h, h'⟩
    refine ⟨h, ?_⟩
    by_cases a : r ≤ q
    · exact .inr fun b => h' ⟨a, b⟩
    · exact .inl a

end Sys2Proof.Machine
end

