-- ==== Sys2Proof/Laws/Memory.lean ====
section
/-! SUPPORT. Laws of bytes: a write is read back and leaves every other address alone, every operation that writes memory keeps its
canonical form, and a little-endian write reads as its number. -/

namespace Sys2Proof.Machine

/-! ### One byte -/

theorem State.merged_setMerged (s : State) (a x : Nat) (b : Byte) : (s.setMerged a b).merged x = if x = a then b else s.merged x :=
  SMap.get_set 0 s.mem a x b

theorem State.setMerged_wf (s : State) (a : Nat) (b : Byte) (h : Memory.wf s.mem = true) : Memory.wf (s.setMerged a b).mem = true :=
  SMap.wf_set 0 s.mem a b h

/-! ### Runs of bytes -/

/-- The last byte that a list of writes gives an address. -/
def lastWrite : List (Nat × Byte) → Nat → Option Byte
  | [], _ => none
  | (a, b) :: t, x => (lastWrite t x).or (if a = x then some b else none)

theorem State.mergeBytes_cons (s : State) (p : Nat × Byte) (l : List (Nat × Byte)) :
    s.mergeBytes (p :: l) = (s.setMerged p.1 p.2).mergeBytes l := rfl

/-- Merging bytes changes the memory alone. -/
theorem State.mergeBytes_eq (s : State) (l : List (Nat × Byte)) : s.mergeBytes l = { s with mem := (s.mergeBytes l).mem } := by
  induction l generalizing s with
  | nil => rfl
  | cons p t ih => rw [State.mergeBytes_cons, ih]; rfl

/-- Reading after merging: the last byte written to the address, or the byte that was there. -/
theorem State.merged_mergeBytes (s : State) (l : List (Nat × Byte)) (x : Nat) :
    (s.mergeBytes l).merged x = (lastWrite l x).getD (s.merged x) := by
  induction l generalizing s with
  | nil => rfl
  | cons p t ih =>
    obtain ⟨a, b⟩ := p
    rw [State.mergeBytes_cons, ih, State.merged_setMerged]
    simp only [lastWrite]
    cases lastWrite t x with
    | some y => rfl
    | none =>
      by_cases h : x = a
      · simp [h]
      · simp [h, Ne.symm h]

theorem lastWrite_none (l : List (Nat × Byte)) (x : Nat) (h : ∀ p ∈ l, p.1 ≠ x) : lastWrite l x = none := by
  induction l with
  | nil => rfl
  | cons p t ih =>
    obtain ⟨a, b⟩ := p
    simp only [lastWrite, ih fun q hq => h q (List.mem_cons_of_mem _ hq), Option.none_or]
    exact if_neg (h (a, b) List.mem_cons_self)

/-- Merging bytes leaves every other address alone. -/
theorem State.merged_mergeBytes_frame (s : State) (l : List (Nat × Byte)) (x : Nat) (h : ∀ p ∈ l, p.1 ≠ x) :
    (s.mergeBytes l).merged x = s.merged x := by
  rw [State.merged_mergeBytes, lastWrite_none l x h]; rfl

theorem State.mergeBytes_wf (s : State) (l : List (Nat × Byte)) (h : Memory.wf s.mem = true) :
    Memory.wf (s.mergeBytes l).mem = true := by
  induction l generalizing s with
  | nil => exact h
  | cons p t ih => exact ih _ (State.setMerged_wf s p.1 p.2 h)

/-! ### Writes of the module's own agents -/

@[simp] theorem State.setTok_mem (s : State) (h sec : Nat) (t : Tok) : (s.setTok h sec t).mem = s.mem := by
  unfold State.setTok
  split <;> rfl

/-- A fold of steps that keep the memory keeps it. -/
theorem State.foldl_mem {α : Type} (f : State → α → State) (hf : ∀ s a, (f s a).mem = s.mem) (l : List α) (s : State) :
    (l.foldl f s).mem = s.mem := by
  induction l generalizing s with
  | nil => rfl
  | cons a t ih => rw [List.foldl_cons, ih, hf]

@[simp] theorem State.send_mem (s : State) (m : Msg) : (s.send m).mem = s.mem := rfl

@[simp] theorem State.homeTakes_mem (s : State) (sec n : Nat) (o : Bool) (k : Nat) : (s.homeTakes sec n o k).mem = s.mem := by
  unfold State.homeTakes
  dsimp only
  split
  · exact State.setTok_mem ..
  · rfl

/-- Giving tokens on changes no byte. -/
@[simp] theorem State.homeGives_mem (s : State) (sec : Nat) : (s.homeGives sec).mem = s.mem := by
  unfold State.homeGives
  dsimp only
  split
  · split
    · rfl
    · rw [State.send_mem, State.setTok_mem]
  · rfl

/-- Gathering tokens changes no byte. -/
@[simp] theorem State.gather_mem (s : State) (sec : Nat) : (s.gather sec).mem = s.mem := by
  unfold State.gather
  dsimp only
  split
  · exact State.setTok_mem ..
  · rw [State.foldl_mem _ fun s (m : Msg) => State.homeTakes_mem s sec m.tokens m.owner m.serial]
    dsimp only
    rw [State.foldl_mem _ fun s h => by rw [State.homeTakes_mem, State.setTok_mem]]
    split <;> rfl

@[simp] theorem State.gatherAll_mem (s : State) (l : List (Nat × Byte)) : (s.gatherAll l).mem = s.mem := by
  unfold State.gatherAll
  split
  · rfl
  · exact State.foldl_mem _ State.gather_mem _ s

@[simp] theorem State.healSectors_mem (s : State) (plain : Bool) (l : List (Nat × Byte)) : (s.healSectors plain l).mem = s.mem := by
  unfold State.healSectors
  split <;> rfl

@[simp] theorem State.healSectors_merged (s : State) (plain : Bool) (l : List (Nat × Byte)) (x : Nat) :
    (s.healSectors plain l).merged x = s.merged x := by
  unfold State.merged
  rw [State.healSectors_mem]

@[simp] theorem State.giveAll_mem (s : State) (l : List (Nat × Byte)) : (s.giveAll l).mem = s.mem := by
  unfold State.giveAll
  split
  · rfl
  · exact State.foldl_mem _ State.homeGives_mem _ s

/-- A fold of steps that keep the canonical form keeps it. -/
theorem State.foldl_wf {α : Type} (f : State → α → State) (hf : ∀ s a, Memory.wf s.mem = true → Memory.wf (f s a).mem = true)
    (l : List α) (s : State) (h : Memory.wf s.mem = true) : Memory.wf (l.foldl f s).mem = true := by
  induction l generalizing s with
  | nil => exact h
  | cons a t ih => exact ih _ (hf s a h)

theorem State.foldShadow_wf (s : State) (h sec : Nat) (hs : Memory.wf s.mem = true) : Memory.wf (s.foldShadow h sec).mem = true := by
  unfold State.foldShadow
  split
  · exact hs
  · dsimp only
    split
    · exact hs
    · split
      · rw [State.setTok_mem]
        exact State.mergeBytes_wf _ _ hs
      · exact hs

theorem State.foldShadows_wf (s : State) (l : List Nat) (h : Memory.wf s.mem = true) : Memory.wf (s.foldShadows l).mem = true := by
  unfold State.foldShadows
  split
  · exact h
  · exact State.foldl_wf _ (fun s x hs => State.foldl_wf _ (fun s k hs => State.foldShadow_wf s k x hs) _ s hs) l s h

/-- Where no reduction shadow stands there is none to round. -/
theorem State.foldShadows_none (s : State) (l : List Nat) (h : s.shadows = []) : s.foldShadows l = s := by simp [State.foldShadows, h]

theorem State.hwWrite_wf (s : State) (l : List (Nat × Byte)) (h : Memory.wf s.mem = true) : Memory.wf (s.hwWrite l).mem = true := by
  unfold State.hwWrite
  dsimp only
  rw [State.giveAll_mem]
  apply State.mergeBytes_wf
  rw [State.healSectors_mem, State.gatherAll_mem]
  exact State.foldShadows_wf s _ h

/-- A write of an agent is read back, and leaves every other byte as it merges once the sectors' shadows are rounded. -/
theorem State.merged_hwWrite (s : State) (l : List (Nat × Byte)) (x : Nat) :
    (s.hwWrite l).merged x = (lastWrite l x).getD ((s.foldShadows (runs (l.map fun p => sectorOf p.1))).merged x) := by
  unfold State.hwWrite
  dsimp only
  rw [show ∀ t : State, (t.giveAll l).merged x = t.merged x from fun t => by unfold State.merged; rw [State.giveAll_mem],
    State.merged_mergeBytes, State.healSectors_merged]
  unfold State.merged
  rw [State.gatherAll_mem]

/-- The same where no shadow stands. -/
theorem State.merged_hwWrite_none (s : State) (l : List (Nat × Byte)) (x : Nat) (h : s.shadows = []) :
    (s.hwWrite l).merged x = (lastWrite l x).getD (s.merged x) := by
  rw [State.merged_hwWrite, State.foldShadows_none s _ h]

theorem State.hwWriteN_wf (s : State) (a n x : Nat) (h : Memory.wf s.mem = true) : Memory.wf (s.hwWriteN a n x).mem = true :=
  State.hwWrite_wf s _ h

theorem State.lsPut_wf (s : State) (c ctx : Nat) (l : List (Nat × Byte)) (h : Memory.wf s.mem = true) :
    Memory.wf (s.lsPut c ctx l).mem = true := by
  unfold State.lsPut
  dsimp only
  split
  · split
    · exact h
    · exact h
  · apply State.hwWrite_wf
    split
    · exact h
    · exact h

@[simp] theorem State.postError_mem (s : State) (r : ErrorRec) : (s.postError r).mem = s.mem := by
  unfold State.postError
  dsimp only
  split <;> rfl

/-! ### Little-endian numbers (R177) -/

theorem toBytes_length (n x : Nat) : (toBytes n x).length = n := by
  induction n generalizing x with
  | zero => rfl
  | succ n ih => simp [toBytes, ih]

/-- The bytes of a number give the number back, modulo their count. -/
theorem ofBytes_toBytes (n x : Nat) : ofBytes (toBytes n x) = x % 256 ^ n := by
  induction n generalizing x with
  | zero => simp [toBytes, ofBytes, Nat.mod_one]
  | succ n ih =>
    have h : (BitVec.ofNat 8 x).toNat = x % 256 := BitVec.toNat_ofNat ..
    rw [toBytes, ofBytes, ih, h, Nat.pow_succ', Nat.mod_mul]

theorem ofBytes_lt (l : List Byte) : ofBytes l < 256 ^ l.length := by
  induction l with
  | nil => simp [ofBytes]
  | cons b t ih =>
    have hb := b.isLt
    simp only [ofBytes, List.length_cons, Nat.pow_succ']
    omega

/-! ### Reset -/

theorem State.reset_mem_wf : Memory.wf State.reset.mem = true := rfl

end Sys2Proof.Machine
end

