-- ==== Sys2Proof/Laws/Engines.lean ====
section
/-! SUPPORT. The canonical form of memory through the operations that filter it (zeroing a range, a reset), through the end of a
copy, and through trap entry. -/

namespace Sys2Proof.Machine

theorem State.zeroRange_wf (s : State) (a n : Nat) (h : Memory.wf s.mem = true) : Memory.wf (s.zeroRange a n).mem = true := by
  unfold State.zeroRange
  dsimp only
  rw [State.foldl_mem _ State.gather_mem]
  exact SMap.wf_filter 0 s.mem _ h

theorem State.fresh_wf (s : State) (ports : SMap Port) (g : Regs) (h : Memory.wf s.mem = true) : Memory.wf (s.fresh ports g).mem = true :=
  SMap.wf_filter 0 s.mem _ h

theorem State.foldl_lsPut_wf (ctx : Nat) (f : Nat → List (Nat × Byte)) (l : List Nat) (s : State) (h : Memory.wf s.mem = true) :
    Memory.wf (l.foldl (fun s c => s.lsPut c ctx (f c)) s).mem = true := by
  induction l generalizing s with
  | nil => exact h
  | cons c t ih => exact ih _ (State.lsPut_wf s c ctx _ h)

theorem State.copyLs_wf (s : State) (o : CopyOp) (l : List CopyCell) (h : Memory.wf s.mem = true) :
    Memory.wf (s.copyLs o l).mem = true :=
  State.foldl_lsPut_wf o.ctx _ _ s h

theorem State.enterTrap_wf (s : State) (c g : Nat) (h : Memory.wf s.mem = true) : Memory.wf (s.enterTrap c g).mem = true := by
  unfold State.enterTrap
  split
  · exact h
  · split
    · exact h
    · split
      · exact h
      · rw [State.setGrp_mem]
        exact State.hwWrite_wf s _ h

end Sys2Proof.Machine
end

