-- ==== Sys2Proof/Laws/Link.lean ====
section
/-! SUPPORT. The small lemmas of the link layer: what writing a port and sending a flit leave of every other field (R440 to R442). -/

namespace Sys2Proof.Machine

/-! ### `State.setPort`, `State.linkFlit` -/

theorem State.port_setPort (s : State) (p j : Nat) (x : Port) : (s.setPort p x).port j = if j = p then x else s.port j :=
  SMap.get_put ({} : Port) s.ports p j x

@[simp] theorem State.setPort_same (s : State) (p : Nat) (x : Port) : (s.setPort p x).port p = x := by simp [State.port_setPort]

@[simp] theorem State.setPort_agenda (s : State) (p : Nat) (x : Port) : (s.setPort p x).agenda = s.agenda := rfl
@[simp] theorem State.setPort_cur (s : State) (p : Nat) (x : Port) : (s.setPort p x).cur = s.cur := rfl
@[simp] theorem State.setPort_lastUnit (s : State) (p : Nat) (x : Port) : (s.setPort p x).lastUnit = s.lastUnit := rfl
@[simp] theorem State.setPort_issued (s : State) (p : Nat) (x : Port) : (s.setPort p x).issued = s.issued := rfl
@[simp] theorem State.setPort_lastDue (s : State) (p : Nat) (x : Port) : (s.setPort p x).lastDue = s.lastDue := rfl
@[simp] theorem State.setPort_serial (s : State) (p : Nat) (x : Port) : (s.setPort p x).serial = s.serial := rfl
@[simp] theorem State.setPort_free (s : State) (p : Nat) (x : Port) : (s.setPort p x).free = s.free := rfl
@[simp] theorem State.setPort_mem (s : State) (p : Nat) (x : Port) : (s.setPort p x).mem = s.mem := rfl
@[simp] theorem State.setPort_tags (s : State) (p : Nat) (x : Port) : (s.setPort p x).tags = s.tags := rfl
@[simp] theorem State.setPort_badSectors (s : State) (p : Nat) (x : Port) : (s.setPort p x).badSectors = s.badSectors := rfl
@[simp] theorem State.setPort_badSram (s : State) (p : Nat) (x : Port) : (s.setPort p x).badSram = s.badSram := rfl
@[simp] theorem State.setPort_poisoned (s : State) (p : Nat) (x : Port) : (s.setPort p x).poisoned = s.poisoned := rfl
@[simp] theorem State.setPort_residues (s : State) (p : Nat) (x : Port) : (s.setPort p x).residues = s.residues := rfl
@[simp] theorem State.setPort_persists (s : State) (p : Nat) (x : Port) : (s.setPort p x).persists = s.persists := rfl
@[simp] theorem State.setPort_recreates (s : State) (p : Nat) (x : Port) : (s.setPort p x).recreates = s.recreates := rfl
@[simp] theorem State.setPort_lastRecreate (s : State) (p : Nat) (x : Port) : (s.setPort p x).lastRecreate = s.lastRecreate := rfl
@[simp] theorem State.setPort_recrHeld (s : State) (p : Nat) (x : Port) : (s.setPort p x).recrHeld = s.recrHeld := rfl
@[simp] theorem State.setPort_homeReads (s : State) (p : Nat) (x : Port) : (s.setPort p x).homeReads = s.homeReads := rfl
@[simp] theorem State.setPort_homeAnswers (s : State) (p : Nat) (x : Port) : (s.setPort p x).homeAnswers = s.homeAnswers := rfl
@[simp] theorem State.setPort_toks (s : State) (p : Nat) (x : Port) : (s.setPort p x).toks = s.toks := rfl
@[simp] theorem State.setPort_shadows (s : State) (p : Nat) (x : Port) : (s.setPort p x).shadows = s.shadows := rfl
@[simp] theorem State.setPort_acts (s : State) (p : Nat) (x : Port) : (s.setPort p x).acts = s.acts := rfl
@[simp] theorem State.setPort_deacts (s : State) (p : Nat) (x : Port) : (s.setPort p x).deacts = s.deacts := rfl
@[simp] theorem State.setPort_hostLines (s : State) (p : Nat) (x : Port) : (s.setPort p x).hostLines = s.hostLines := rfl
@[simp] theorem State.setPort_agentAnswers (s : State) (p : Nat) (x : Port) : (s.setPort p x).agentAnswers = s.agentAnswers := rfl
@[simp] theorem State.setPort_hostReads (s : State) (p : Nat) (x : Port) : (s.setPort p x).hostReads = s.hostReads := rfl
@[simp] theorem State.setPort_hostWrites (s : State) (p : Nat) (x : Port) : (s.setPort p x).hostWrites = s.hostWrites := rfl
@[simp] theorem State.setPort_recalls (s : State) (p : Nat) (x : Port) : (s.setPort p x).recalls = s.recalls := rfl
@[simp] theorem State.setPort_hostReqs (s : State) (p : Nat) (x : Port) : (s.setPort p x).hostReqs = s.hostReqs := rfl
@[simp] theorem State.setPort_misses (s : State) (p : Nat) (x : Port) : (s.setPort p x).misses = s.misses := rfl
@[simp] theorem State.setPort_msgs (s : State) (p : Nat) (x : Port) : (s.setPort p x).msgs = s.msgs := rfl
@[simp] theorem State.setPort_ops (s : State) (p : Nat) (x : Port) : (s.setPort p x).ops = s.ops := rfl
@[simp] theorem State.setPort_dies (s : State) (p : Nat) (x : Port) : (s.setPort p x).dies = s.dies := rfl
@[simp] theorem State.setPort_cores (s : State) (p : Nat) (x : Port) : (s.setPort p x).cores = s.cores := rfl
@[simp] theorem State.setPort_ctxs (s : State) (p : Nat) (x : Port) : (s.setPort p x).ctxs = s.ctxs := rfl
@[simp] theorem State.setPort_launches (s : State) (p : Nat) (x : Port) : (s.setPort p x).launches = s.launches := rfl
@[simp] theorem State.setPort_gangs (s : State) (p : Nat) (x : Port) : (s.setPort p x).gangs = s.gangs := rfl
@[simp] theorem State.setPort_placing (s : State) (p : Nat) (x : Port) : (s.setPort p x).placing = s.placing := rfl
@[simp] theorem State.setPort_queues (s : State) (p : Nat) (x : Port) : (s.setPort p x).queues = s.queues := rfl
@[simp] theorem State.setPort_backing (s : State) (p : Nat) (x : Port) : (s.setPort p x).backing = s.backing := rfl
@[simp] theorem State.setPort_members (s : State) (p : Nat) (x : Port) : (s.setPort p x).members = s.members := rfl
@[simp] theorem State.setPort_matches_ (s : State) (p : Nat) (x : Port) : (s.setPort p x).matches_ = s.matches_ := rfl
@[simp] theorem State.setPort_spanSeen (s : State) (p : Nat) (x : Port) : (s.setPort p x).spanSeen = s.spanSeen := rfl
@[simp] theorem State.setPort_deadLanes (s : State) (p : Nat) (x : Port) : (s.setPort p x).deadLanes = s.deadLanes := rfl
@[simp] theorem State.setPort_deadAdders (s : State) (p : Nat) (x : Port) : (s.setPort p x).deadAdders = s.deadAdders := rfl
@[simp] theorem State.setPort_deadHubs (s : State) (p : Nat) (x : Port) : (s.setPort p x).deadHubs = s.deadHubs := rfl
@[simp] theorem State.setPort_postSets (s : State) (p : Nat) (x : Port) : (s.setPort p x).postSets = s.postSets := rfl
@[simp] theorem State.setPort_xmsgs (s : State) (p : Nat) (x : Port) : (s.setPort p x).xmsgs = s.xmsgs := rfl
@[simp] theorem State.setPort_postQ (s : State) (p : Nat) (x : Port) : (s.setPort p x).postQ = s.postQ := rfl
@[simp] theorem State.setPort_windows (s : State) (p : Nat) (x : Port) : (s.setPort p x).windows = s.windows := rfl
@[simp] theorem State.setPort_regs (s : State) (p : Nat) (x : Port) : (s.setPort p x).regs = s.regs := rfl
@[simp] theorem State.setPort_lqTurn (s : State) (p : Nat) (x : Port) : (s.setPort p x).lqTurn = s.lqTurn := rfl
@[simp] theorem State.linkFlit_agenda (s : State) (p typ : Nat) (b : List Byte) : (s.linkFlit p typ b).agenda = s.agenda := rfl
@[simp] theorem State.linkFlit_cur (s : State) (p typ : Nat) (b : List Byte) : (s.linkFlit p typ b).cur = s.cur := rfl
@[simp] theorem State.linkFlit_lastUnit (s : State) (p typ : Nat) (b : List Byte) : (s.linkFlit p typ b).lastUnit = s.lastUnit := rfl
@[simp] theorem State.linkFlit_issued (s : State) (p typ : Nat) (b : List Byte) : (s.linkFlit p typ b).issued = s.issued := rfl
@[simp] theorem State.linkFlit_lastDue (s : State) (p typ : Nat) (b : List Byte) : (s.linkFlit p typ b).lastDue = s.lastDue := rfl
@[simp] theorem State.linkFlit_serial (s : State) (p typ : Nat) (b : List Byte) : (s.linkFlit p typ b).serial = s.serial := rfl
@[simp] theorem State.linkFlit_free (s : State) (p typ : Nat) (b : List Byte) : (s.linkFlit p typ b).free = s.free := rfl
@[simp] theorem State.linkFlit_mem (s : State) (p typ : Nat) (b : List Byte) : (s.linkFlit p typ b).mem = s.mem := rfl
@[simp] theorem State.linkFlit_tags (s : State) (p typ : Nat) (b : List Byte) : (s.linkFlit p typ b).tags = s.tags := rfl
@[simp] theorem State.linkFlit_badSectors (s : State) (p typ : Nat) (b : List Byte) : (s.linkFlit p typ b).badSectors = s.badSectors := rfl
@[simp] theorem State.linkFlit_badSram (s : State) (p typ : Nat) (b : List Byte) : (s.linkFlit p typ b).badSram = s.badSram := rfl
@[simp] theorem State.linkFlit_poisoned (s : State) (p typ : Nat) (b : List Byte) : (s.linkFlit p typ b).poisoned = s.poisoned := rfl
@[simp] theorem State.linkFlit_residues (s : State) (p typ : Nat) (b : List Byte) : (s.linkFlit p typ b).residues = s.residues := rfl
@[simp] theorem State.linkFlit_persists (s : State) (p typ : Nat) (b : List Byte) : (s.linkFlit p typ b).persists = s.persists := rfl
@[simp] theorem State.linkFlit_recreates (s : State) (p typ : Nat) (b : List Byte) : (s.linkFlit p typ b).recreates = s.recreates := rfl
@[simp] theorem State.linkFlit_lastRecreate (s : State) (p typ : Nat) (b : List Byte) : (s.linkFlit p typ b).lastRecreate = s.lastRecreate := rfl
@[simp] theorem State.linkFlit_recrHeld (s : State) (p typ : Nat) (b : List Byte) : (s.linkFlit p typ b).recrHeld = s.recrHeld := rfl
@[simp] theorem State.linkFlit_homeReads (s : State) (p typ : Nat) (b : List Byte) : (s.linkFlit p typ b).homeReads = s.homeReads := rfl
@[simp] theorem State.linkFlit_homeAnswers (s : State) (p typ : Nat) (b : List Byte) : (s.linkFlit p typ b).homeAnswers = s.homeAnswers := rfl
@[simp] theorem State.linkFlit_toks (s : State) (p typ : Nat) (b : List Byte) : (s.linkFlit p typ b).toks = s.toks := rfl
@[simp] theorem State.linkFlit_shadows (s : State) (p typ : Nat) (b : List Byte) : (s.linkFlit p typ b).shadows = s.shadows := rfl
@[simp] theorem State.linkFlit_acts (s : State) (p typ : Nat) (b : List Byte) : (s.linkFlit p typ b).acts = s.acts := rfl
@[simp] theorem State.linkFlit_deacts (s : State) (p typ : Nat) (b : List Byte) : (s.linkFlit p typ b).deacts = s.deacts := rfl
@[simp] theorem State.linkFlit_hostLines (s : State) (p typ : Nat) (b : List Byte) : (s.linkFlit p typ b).hostLines = s.hostLines := rfl
@[simp] theorem State.linkFlit_agentAnswers (s : State) (p typ : Nat) (b : List Byte) : (s.linkFlit p typ b).agentAnswers = s.agentAnswers := rfl
@[simp] theorem State.linkFlit_hostReads (s : State) (p typ : Nat) (b : List Byte) : (s.linkFlit p typ b).hostReads = s.hostReads := rfl
@[simp] theorem State.linkFlit_hostWrites (s : State) (p typ : Nat) (b : List Byte) : (s.linkFlit p typ b).hostWrites = s.hostWrites := rfl
@[simp] theorem State.linkFlit_recalls (s : State) (p typ : Nat) (b : List Byte) : (s.linkFlit p typ b).recalls = s.recalls := rfl
@[simp] theorem State.linkFlit_hostReqs (s : State) (p typ : Nat) (b : List Byte) : (s.linkFlit p typ b).hostReqs = s.hostReqs := rfl
@[simp] theorem State.linkFlit_misses (s : State) (p typ : Nat) (b : List Byte) : (s.linkFlit p typ b).misses = s.misses := rfl
@[simp] theorem State.linkFlit_msgs (s : State) (p typ : Nat) (b : List Byte) : (s.linkFlit p typ b).msgs = s.msgs := rfl
@[simp] theorem State.linkFlit_ops (s : State) (p typ : Nat) (b : List Byte) : (s.linkFlit p typ b).ops = s.ops := rfl
@[simp] theorem State.linkFlit_dies (s : State) (p typ : Nat) (b : List Byte) : (s.linkFlit p typ b).dies = s.dies := rfl
@[simp] theorem State.linkFlit_cores (s : State) (p typ : Nat) (b : List Byte) : (s.linkFlit p typ b).cores = s.cores := rfl
@[simp] theorem State.linkFlit_ctxs (s : State) (p typ : Nat) (b : List Byte) : (s.linkFlit p typ b).ctxs = s.ctxs := rfl
@[simp] theorem State.linkFlit_launches (s : State) (p typ : Nat) (b : List Byte) : (s.linkFlit p typ b).launches = s.launches := rfl
@[simp] theorem State.linkFlit_gangs (s : State) (p typ : Nat) (b : List Byte) : (s.linkFlit p typ b).gangs = s.gangs := rfl
@[simp] theorem State.linkFlit_placing (s : State) (p typ : Nat) (b : List Byte) : (s.linkFlit p typ b).placing = s.placing := rfl
@[simp] theorem State.linkFlit_queues (s : State) (p typ : Nat) (b : List Byte) : (s.linkFlit p typ b).queues = s.queues := rfl
@[simp] theorem State.linkFlit_backing (s : State) (p typ : Nat) (b : List Byte) : (s.linkFlit p typ b).backing = s.backing := rfl
@[simp] theorem State.linkFlit_members (s : State) (p typ : Nat) (b : List Byte) : (s.linkFlit p typ b).members = s.members := rfl
@[simp] theorem State.linkFlit_matches_ (s : State) (p typ : Nat) (b : List Byte) : (s.linkFlit p typ b).matches_ = s.matches_ := rfl
@[simp] theorem State.linkFlit_spanSeen (s : State) (p typ : Nat) (b : List Byte) : (s.linkFlit p typ b).spanSeen = s.spanSeen := rfl
@[simp] theorem State.linkFlit_deadLanes (s : State) (p typ : Nat) (b : List Byte) : (s.linkFlit p typ b).deadLanes = s.deadLanes := rfl
@[simp] theorem State.linkFlit_deadAdders (s : State) (p typ : Nat) (b : List Byte) : (s.linkFlit p typ b).deadAdders = s.deadAdders := rfl
@[simp] theorem State.linkFlit_deadHubs (s : State) (p typ : Nat) (b : List Byte) : (s.linkFlit p typ b).deadHubs = s.deadHubs := rfl
@[simp] theorem State.linkFlit_postSets (s : State) (p typ : Nat) (b : List Byte) : (s.linkFlit p typ b).postSets = s.postSets := rfl
@[simp] theorem State.linkFlit_xmsgs (s : State) (p typ : Nat) (b : List Byte) : (s.linkFlit p typ b).xmsgs = s.xmsgs := rfl
@[simp] theorem State.linkFlit_postQ (s : State) (p typ : Nat) (b : List Byte) : (s.linkFlit p typ b).postQ = s.postQ := rfl
@[simp] theorem State.linkFlit_windows (s : State) (p typ : Nat) (b : List Byte) : (s.linkFlit p typ b).windows = s.windows := rfl
@[simp] theorem State.linkFlit_regs (s : State) (p typ : Nat) (b : List Byte) : (s.linkFlit p typ b).regs = s.regs := rfl
@[simp] theorem State.linkFlit_lqTurn (s : State) (p typ : Nat) (b : List Byte) : (s.linkFlit p typ b).lqTurn = s.lqTurn := rfl

/-! ### `Port.emit`, `Port.drain`, `Port.send` -/

/-- What sending one flit and the list of those that wait leave alone, sending all that may go leaves alone. -/
theorem Port.drain_keeps {α : Type} (f : Port → α) (he : ∀ x u, f (Port.emit x u) = f x) (hw : ∀ (x : Port) l, f { x with waiting := l } = f x)
    (x : Port) : f x.drain = f x := by
  have go (l : List Unsent) (y : Port) :
      f (l.foldl (fun x u => if x.mayEmit u then x.emit u else { x with waiting := x.waiting ++ [u] }) y) = f y := by
    induction l generalizing y with
    | nil => rfl
    | cons u t ih =>
      rw [List.foldl_cons, ih]
      split
      · exact he y u
      · exact hw y _
  exact (go x.waiting _).trans (hw x [])

theorem Port.send_keeps {α : Type} (f : Port → α) (he : ∀ x u, f (Port.emit x u) = f x) (hw : ∀ (x : Port) l, f { x with waiting := l } = f x)
    (x : Port) (typ vc dpkg : Nat) (b : List Byte) : f (x.send typ vc dpkg b) = f x :=
  (Port.drain_keeps f he hw _).trans (hw x _)

@[simp] theorem Port.drain_up (x : Port) : x.drain.up = x.up := Port.drain_keeps (fun y => y.up) (fun _ _ => rfl) (fun _ _ => rfl) x
@[simp] theorem Port.send_up (x : Port) (typ vc dpkg : Nat) (b : List Byte) : (x.send typ vc dpkg b).up = x.up :=
  Port.send_keeps (fun y => y.up) (fun _ _ => rfl) (fun _ _ => rfl) x typ vc dpkg b
@[simp] theorem Port.drain_enc (x : Port) : x.drain.enc = x.enc := Port.drain_keeps (fun y => y.enc) (fun _ _ => rfl) (fun _ _ => rfl) x
@[simp] theorem Port.send_enc (x : Port) (typ vc dpkg : Nat) (b : List Byte) : (x.send typ vc dpkg b).enc = x.enc :=
  Port.send_keeps (fun y => y.enc) (fun _ _ => rfl) (fun _ _ => rfl) x typ vc dpkg b
@[simp] theorem Port.drain_kidx (x : Port) : x.drain.kidx = x.kidx := Port.drain_keeps (fun y => y.kidx) (fun _ _ => rfl) (fun _ _ => rfl) x
@[simp] theorem Port.send_kidx (x : Port) (typ vc dpkg : Nat) (b : List Byte) : (x.send typ vc dpkg b).kidx = x.kidx :=
  Port.send_keeps (fun y => y.kidx) (fun _ _ => rfl) (fun _ _ => rfl) x typ vc dpkg b
@[simp] theorem Port.drain_roll (x : Port) : x.drain.roll = x.roll := Port.drain_keeps (fun y => y.roll) (fun _ _ => rfl) (fun _ _ => rfl) x
@[simp] theorem Port.send_roll (x : Port) (typ vc dpkg : Nat) (b : List Byte) : (x.send typ vc dpkg b).roll = x.roll :=
  Port.send_keeps (fun y => y.roll) (fun _ _ => rfl) (fun _ _ => rfl) x typ vc dpkg b
@[simp] theorem Port.drain_replays (x : Port) : x.drain.replays = x.replays := Port.drain_keeps (fun y => y.replays) (fun _ _ => rfl) (fun _ _ => rfl) x
@[simp] theorem Port.send_replays (x : Port) (typ vc dpkg : Nat) (b : List Byte) : (x.send typ vc dpkg b).replays = x.replays :=
  Port.send_keeps (fun y => y.replays) (fun _ _ => rfl) (fun _ _ => rfl) x typ vc dpkg b
@[simp] theorem Port.drain_en (x : Port) : x.drain.en = x.en := Port.drain_keeps (fun y => y.en) (fun _ _ => rfl) (fun _ _ => rfl) x
@[simp] theorem Port.send_en (x : Port) (typ vc dpkg : Nat) (b : List Byte) : (x.send typ vc dpkg b).en = x.en :=
  Port.send_keeps (fun y => y.en) (fun _ _ => rfl) (fun _ _ => rfl) x typ vc dpkg b
@[simp] theorem Port.drain_training (x : Port) : x.drain.training = x.training := Port.drain_keeps (fun y => y.training) (fun _ _ => rfl) (fun _ _ => rfl) x
@[simp] theorem Port.send_training (x : Port) (typ vc dpkg : Nat) (b : List Byte) : (x.send typ vc dpkg b).training = x.training :=
  Port.send_keeps (fun y => y.training) (fun _ _ => rfl) (fun _ _ => rfl) x typ vc dpkg b
@[simp] theorem Port.drain_expected (x : Port) : x.drain.expected = x.expected := Port.drain_keeps (fun y => y.expected) (fun _ _ => rfl) (fun _ _ => rfl) x
@[simp] theorem Port.send_expected (x : Port) (typ vc dpkg : Nat) (b : List Byte) : (x.send typ vc dpkg b).expected = x.expected :=
  Port.send_keeps (fun y => y.expected) (fun _ _ => rfl) (fun _ _ => rfl) x typ vc dpkg b
@[simp] theorem Port.drain_got (x : Port) : x.drain.got = x.got := Port.drain_keeps (fun y => y.got) (fun _ _ => rfl) (fun _ _ => rfl) x
@[simp] theorem Port.send_got (x : Port) (typ vc dpkg : Nat) (b : List Byte) : (x.send typ vc dpkg b).got = x.got :=
  Port.send_keeps (fun y => y.got) (fun _ _ => rfl) (fun _ _ => rfl) x typ vc dpkg b
@[simp] theorem Port.drain_txKeys (x : Port) : x.drain.txKeys = x.txKeys := Port.drain_keeps (fun y => y.txKeys) (fun _ _ => rfl) (fun _ _ => rfl) x
@[simp] theorem Port.send_txKeys (x : Port) (typ vc dpkg : Nat) (b : List Byte) : (x.send typ vc dpkg b).txKeys = x.txKeys :=
  Port.send_keeps (fun y => y.txKeys) (fun _ _ => rfl) (fun _ _ => rfl) x typ vc dpkg b
@[simp] theorem Port.drain_rxKeys (x : Port) : x.drain.rxKeys = x.rxKeys := Port.drain_keeps (fun y => y.rxKeys) (fun _ _ => rfl) (fun _ _ => rfl) x
@[simp] theorem Port.send_rxKeys (x : Port) (typ vc dpkg : Nat) (b : List Byte) : (x.send typ vc dpkg b).rxKeys = x.rxKeys :=
  Port.send_keeps (fun y => y.rxKeys) (fun _ _ => rfl) (fun _ _ => rfl) x typ vc dpkg b
@[simp] theorem Port.drain_naked (x : Port) : x.drain.naked = x.naked := Port.drain_keeps (fun y => y.naked) (fun _ _ => rfl) (fun _ _ => rfl) x
@[simp] theorem Port.send_naked (x : Port) (typ vc dpkg : Nat) (b : List Byte) : (x.send typ vc dpkg b).naked = x.naked :=
  Port.send_keeps (fun y => y.naked) (fun _ _ => rfl) (fun _ _ => rfl) x typ vc dpkg b
@[simp] theorem Port.drain_lost (x : Port) : x.drain.lost = x.lost := Port.drain_keeps (fun y => y.lost) (fun _ _ => rfl) (fun _ _ => rfl) x
@[simp] theorem Port.send_lost (x : Port) (typ vc dpkg : Nat) (b : List Byte) : (x.send typ vc dpkg b).lost = x.lost :=
  Port.send_keeps (fun y => y.lost) (fun _ _ => rfl) (fun _ _ => rfl) x typ vc dpkg b
@[simp] theorem Port.drain_lastOld (x : Port) : x.drain.lastOld = x.lastOld := Port.drain_keeps (fun y => y.lastOld) (fun _ _ => rfl) (fun _ _ => rfl) x
@[simp] theorem Port.send_lastOld (x : Port) (typ vc dpkg : Nat) (b : List Byte) : (x.send typ vc dpkg b).lastOld = x.lastOld :=
  Port.send_keeps (fun y => y.lastOld) (fun _ _ => rfl) (fun _ _ => rfl) x typ vc dpkg b
@[simp] theorem Port.drain_rollAgain (x : Port) : x.drain.rollAgain = x.rollAgain := Port.drain_keeps (fun y => y.rollAgain) (fun _ _ => rfl) (fun _ _ => rfl) x
@[simp] theorem Port.send_rollAgain (x : Port) (typ vc dpkg : Nat) (b : List Byte) : (x.send typ vc dpkg b).rollAgain = x.rollAgain :=
  Port.send_keeps (fun y => y.rollAgain) (fun _ _ => rfl) (fun _ _ => rfl) x typ vc dpkg b
@[simp] theorem Port.drain_keyRun (x : Port) : x.drain.keyRun = x.keyRun := Port.drain_keeps (fun y => y.keyRun) (fun _ _ => rfl) (fun _ _ => rfl) x
@[simp] theorem Port.send_keyRun (x : Port) (typ vc dpkg : Nat) (b : List Byte) : (x.send typ vc dpkg b).keyRun = x.keyRun :=
  Port.send_keeps (fun y => y.keyRun) (fun _ _ => rfl) (fun _ _ => rfl) x typ vc dpkg b
@[simp] theorem Port.drain_transcript (x : Port) : x.drain.transcript = x.transcript := Port.drain_keeps (fun y => y.transcript) (fun _ _ => rfl) (fun _ _ => rfl) x
@[simp] theorem Port.send_transcript (x : Port) (typ vc dpkg : Nat) (b : List Byte) : (x.send typ vc dpkg b).transcript = x.transcript :=
  Port.send_keeps (fun y => y.transcript) (fun _ _ => rfl) (fun _ _ => rfl) x typ vc dpkg b
@[simp] theorem Port.drain_heard (x : Port) : x.drain.heard = x.heard := Port.drain_keeps (fun y => y.heard) (fun _ _ => rfl) (fun _ _ => rfl) x
@[simp] theorem Port.send_heard (x : Port) (typ vc dpkg : Nat) (b : List Byte) : (x.send typ vc dpkg b).heard = x.heard :=
  Port.send_keeps (fun y => y.heard) (fun _ _ => rfl) (fun _ _ => rfl) x typ vc dpkg b
@[simp] theorem Port.drain_received (x : Port) : x.drain.received = x.received := Port.drain_keeps (fun y => y.received) (fun _ _ => rfl) (fun _ _ => rfl) x
@[simp] theorem Port.send_received (x : Port) (typ vc dpkg : Nat) (b : List Byte) : (x.send typ vc dpkg b).received = x.received :=
  Port.send_keeps (fun y => y.received) (fun _ _ => rfl) (fun _ _ => rfl) x typ vc dpkg b

/-- A port on which a flit may go, with none waiting, sends it at once. -/
theorem Port.send_eq (x : Port) (typ vc dpkg : Nat) (b : List Byte) (hw : x.waiting = []) (hm : x.mayEmit ⟨typ, vc, dpkg, b⟩ = true) :
    x.send typ vc dpkg b = x.emit ⟨typ, vc, dpkg, b⟩ := by
  obtain ⟨up, enc, kidx, roll, replays, en, training, nextSeq, expected, got, buffer, waiting, tx, rx, ctr, naked, lost, old, again, run, tr, heard,
    out, received⟩ := x
  cases hw
  exact if_pos hm

/-- Where nothing waits nothing goes. -/
@[simp] theorem Port.drain_eq (x : Port) (hw : x.waiting = []) : x.drain = x := by
  obtain ⟨up, enc, kidx, roll, replays, en, training, nextSeq, expected, got, buffer, waiting, tx, rx, ctr, naked, lost, old, again, run, tr, heard,
    out, received⟩ := x
  cases hw
  rfl

end Sys2Proof.Machine
end

