-- ==== Sys2Proof/Laws/Ops.lean ====
section
/-! SUPPORT. One lemma for each shared operation of the lanes: what a write of a register holds and leaves, what the end of an issue
leaves of a group, and what an instruction of the shapes `onSplit`, `onBoth` and `lane` answers. -/

namespace Sys2Proof.Machine

open Host (Outcome)

/-! ### Lanes -/

theorem mem_lanes (m : Mask) (L : Nat) : L ∈ lanes m ↔ m.getLsbD L = true := by
  simp only [lanes, List.mem_filter, List.mem_range]
  exact ⟨fun h => h.2, fun h => ⟨BitVec.lt_of_getLsbD h, h⟩⟩

/-! ### Writing registers (R8, R76, R77) -/

theorem foldl_vset_v (g : Group) (d : Nat) (f : Nat → Word) (l : List Nat) (r L : Nat) :
    (l.foldl (fun g L => g.vset d L (f L)) g).vget r L = if r = d ∧ L ∈ l then f L else g.vget r L := by
  induction l generalizing g with
  | nil => simp
  | cons M t ih =>
    simp only [List.foldl_cons, ih, Group.vget_vset, List.mem_cons]
    by_cases hr : r = d
    · by_cases ht : L ∈ t
      · simp [hr, ht]
      · by_cases hM : L = M
        · subst hM; simp [hr, ht]
        · simp [hr, ht, hM]
    · simp [hr]

theorem foldl_vset_eq (g : Group) (d : Nat) (f : Nat → Word) (l : List Nat) :
    l.foldl (fun g L => g.vset d L (f L)) g = { g with v := (l.foldl (fun g L => g.vset d L (f L)) g).v } := by
  induction l generalizing g with
  | nil => rfl
  | cons M t ih => simp only [List.foldl_cons]; rw [ih]; rfl

/-- R8: the lanes of the mask hold the value in a v destination, and every other lane and register is as before. -/
theorem Group.vget_wr (g : Group) (d : Nat) (k : Mask) (f : Nat → Word) (r L : Nat) :
    (g.wr d k f).vget r L = if d < 96 ∧ r = d ∧ k.getLsbD L = true then f L else g.vget r L := by
  unfold Group.wr
  split
  · rename_i h
    rw [foldl_vset_v]
    simp only [mem_lanes, h, true_and]
  · rename_i h
    rw [if_neg (fun e => h e.1)]
    rfl

/-- R8: an s destination holds the lowest lane's value, and every other s register is as before. -/
theorem Group.sget_wr (g : Group) (d : Nat) (k : Mask) (f : Nat → Word) (r : Nat) :
    (g.wr d k f).sget r = if 96 ≤ d ∧ r = d - 96 then f (lowest k) else g.sget r := by
  unfold Group.wr
  split
  · rename_i h
    rw [foldl_vset_eq, if_neg (by omega)]
    rfl
  · rename_i h
    rw [Group.sget_sset]
    by_cases hr : r = d - 96
    · rw [if_pos hr, if_pos ⟨by omega, hr⟩]
    · rw [if_neg hr, if_neg fun e => hr e.2]

/-- Writing a register changes the v and s registers alone. -/
theorem Group.wr_eq (g : Group) (d : Nat) (k : Mask) (f : Nat → Word) :
    g.wr d k f = { g with v := (g.wr d k f).v, sregs := (g.wr d k f).sregs } := by
  unfold Group.wr
  split
  · rw [foldl_vset_eq]
  · rfl

theorem Group.wr64_eq (g : Group) (d : Nat) (k : Mask) (f : Nat → Dword) :
    g.wr64 d k f = { g with v := (g.wr64 d k f).v, sregs := (g.wr64 d k f).sregs } := by
  unfold Group.wr64
  rw [Group.wr_eq, Group.wr_eq g]

@[simp] theorem Group.pget_wr (g : Group) (d : Nat) (k : Mask) (f : Nat → Word) (n : Nat) : (g.wr d k f).pget n = g.pget n := by
  rw [Group.wr_eq]; rfl

@[simp] theorem Group.pget_wr64 (g : Group) (d : Nat) (k : Mask) (f : Nat → Dword) (n : Nat) : (g.wr64 d k f).pget n = g.pget n := by
  rw [Group.wr64_eq]; rfl

/-- R10, R77: what a register code supplies after a write: the new value where it names the destination in a lane of the mask. -/
theorem Group.rd_wr_v (g : Group) (d : Nat) (k : Mask) (f : Nat → Word) (L : Nat) (hd : d < 96) (hL : k.getLsbD L = true) :
    (g.wr d k f).rd d L = f L := by
  simp [Group.rd, hd, Group.vget_wr, hL]

theorem Group.rd_wr_s (g : Group) (d : Nat) (k : Mask) (f : Nat → Word) (L : Nat) (hd : 96 ≤ d) :
    (g.wr d k f).rd d L = f (lowest k) := by
  simp [Group.rd, Nat.not_lt.mpr hd, Group.sget_wr, hd]

/-! ### The end of an issue -/

/-- What the bookkeeping of splits leaves of a group. -/
structure Group.SplitsOnly (g G : Group) : Prop where
  eq : G = { g with slots := G.slots, spill := G.spill, frames := G.frames, park := G.park, parkMark := G.parkMark, stall := G.stall }

theorem Group.SplitsOnly.refl (g : Group) : g.SplitsOnly g := ⟨rfl⟩

theorem Group.SplitsOnly.trans {a b c : Group} (h : a.SplitsOnly b) (h' : b.SplitsOnly c) : a.SplitsOnly c :=
  ⟨by rw [h'.eq, h.eq]⟩

theorem Group.tick_splitsOnly (g : Group) (i : Option Nat) : g.SplitsOnly (g.tick i) := ⟨rfl⟩

theorem Group.modSlot_splitsOnly (g : Group) (i : Nat) (f : Split → Split) : g.SplitsOnly (g.modSlot i f) := by
  unfold Group.modSlot
  split
  · exact ⟨rfl⟩
  · exact .refl g

theorem Group.goto_splitsOnly (g : Group) (i : Nat) (pc : Pc) : g.SplitsOnly (g.goto i pc) := by
  unfold Group.goto
  split
  · exact ⟨rfl⟩
  · exact .refl g

theorem Group.mark_splitsOnly (g : Group) (m : Bool) : g.SplitsOnly (g.mark m) := by
  unfold Group.mark
  split
  · exact ⟨rfl⟩
  · exact .refl g

theorem Group.hold_splitsOnly (g : Group) (i : Nat) (w : Wait) (m : Bool) : g.SplitsOnly (g.hold i w m) := g.modSlot_splitsOnly i _

theorem Group.mergeSlots_splitsOnly (g : Group) (i j : Nat) : g.SplitsOnly (g.mergeSlots i j) := by
  unfold Group.mergeSlots
  split
  · split
    · exact ⟨rfl⟩
    · exact .refl g
  · exact .refl g

theorem Group.mergeAll_splitsOnly (g : Group) : g.SplitsOnly g.mergeAll := by
  unfold Group.mergeAll
  generalize [(0, 1), (0, 2), (0, 3), (1, 2), (1, 3), (2, 3)] = l
  induction l generalizing g with
  | nil => exact .refl g
  | cons p t ih => exact (g.mergeSlots_splitsOnly p.1 p.2).trans (ih _)

theorem Group.reload1_splitsOnly (g : Group) : g.SplitsOnly g.reload1 := by
  unfold Group.reload1
  split
  · exact .trans ⟨rfl⟩ (Group.mergeAll_splitsOnly _)
  · exact .refl g

theorem Group.settle_splitsOnly (g : Group) : g.SplitsOnly g.settle := by
  unfold Group.settle
  dsimp only
  split
  · exact g.mergeAll_splitsOnly
  · refine g.mergeAll_splitsOnly.trans ?_
    generalize g.mergeAll = h
    suffices H : ∀ n (x : Group), x.SplitsOnly (iter Group.reload1 n x) from H 28 h
    intro n
    induction n with
    | zero => exact fun x => .refl x
    | succ n ih => exact fun x => x.reload1_splitsOnly.trans (ih _)

/-- The end of an issue changes the group's splits and its parking alone. -/
theorem Group.retire_splitsOnly (g : Group) (i : Nat) (pc : Pc) (m : Bool) : g.SplitsOnly (g.retire i pc m) := by
  unfold Group.retire
  exact (((g.tick_splitsOnly _).trans (Group.goto_splitsOnly _ i pc)).trans (Group.mark_splitsOnly _ m)).trans (Group.settle_splitsOnly _)

/-- What stays with the splits' bookkeeping: every register, predicate and pending flag, and the special state. -/
theorem Group.SplitsOnly.keeps {g G : Group} (h : g.SplitsOnly G) :
    (∀ r L, G.vget r L = g.vget r L) ∧ (∀ r, G.sget r = g.sget r) ∧ (∀ n, G.pget n = g.pget n) ∧ G.pend = g.pend ∧ G.sat = g.sat
      ∧ G.sup = g.sup ∧ G.trapcause = g.trapcause ∧ G.trapmask = g.trapmask ∧ G.trapaddr = g.trapaddr ∧ G.trapsplit = g.trapsplit
      ∧ G.pfdrop = g.pfdrop ∧ G.exited = g.exited ∧ G.uid = g.uid := by
  rw [h.eq]
  exact ⟨fun _ _ => rfl, fun _ => rfl, fun _ => rfl, rfl, rfl, rfl, rfl, rfl, rfl, rfl, rfl, rfl, rfl⟩

/-! ### The shapes of instructions -/

/-- What an instruction of groups answers: a next state for the issuing split, or for a sequencer the stop of R90. -/
theorem onSplit_cases {s : State} {f : Iss → State} {t : State} (h : onSplit s f = .next t) :
    (∃ c g k I, s.cur = some (.split c g k) ∧ s.iss c g k = some I ∧ t = f I)
      ∨ ∃ c cp, s.cur = some (.seq c cp) ∧ t = s.seqStop c cp 0x08 := by
  unfold onSplit at h
  split at h
  · rename_i c g k hc
    split at h
    · rename_i I hI
      exact .inl ⟨c, g, k, I, hc, hI, by cases h; rfl⟩
    · cases h
  · rename_i c cp hc
    exact .inr ⟨c, cp, hc, by cases h; rfl⟩
  · cases h

theorem onSplit_run {s : State} {c g k : Nat} {I : Iss} (f : Iss → State) (hc : s.cur = some (.split c g k))
    (hI : s.iss c g k = some I) : onSplit s f = .next (f I) := by
  simp [onSplit, hc, hI]

theorem onBoth_split {s : State} {c g k : Nat} {I : Iss} (f : Iss → State) (h : Nat → Bool → State)
    (hc : s.cur = some (.split c g k)) (hI : s.iss c g k = some I) : onBoth s f h = .next (f I) := by
  simp [onBoth, hc, hI]

theorem onBoth_seq {s : State} {c : Nat} {cp : Bool} (f : Iss → State) (h : Nat → Bool → State) (hc : s.cur = some (.seq c cp)) :
    onBoth s f h = .next (h c cp) := by
  simp [onBoth, hc]

/-- R103: a lane instruction whose operands are in order completes, with the effect on its group. -/
theorem lane_run {s : State} {c g k : Nat} {I : Iss} (n : Nat) (m : Bool) (ops : List Opd) (f : Group → Mask → Group)
    (hc : s.cur = some (.split c g k)) (hI : s.iss c g k = some I) (ho : I.gr.check false ops = none) :
    lane n m ops f s = .next (I.done s (f I.gr I.sp.mask) n m) := by
  unfold lane
  rw [onSplit_run _ hc hI]
  simp [ho]

/-- R88: a lane instruction whose operands are not in order takes their cause. -/
theorem lane_trap {s : State} {c g k : Nat} {I : Iss} (n : Nat) (m : Bool) (ops : List Opd) (f : Group → Mask → Group) {x : BitVec 8}
    (hc : s.cur = some (.split c g k)) (hI : s.iss c g k = some I) (ho : I.gr.check false ops = some x) :
    lane n m ops f s = .next (I.trap s x) := by
  unfold lane
  rw [onSplit_run _ hc hI]
  simp [ho]

/-- R6, R10, R77, R88: when a group's check of its operands passes. -/
theorem Group.check_none (g : Group) (sup : Bool) (ops : List Opd) :
    g.check sup ops = none ↔ (∀ o ∈ ops, Opd.aligned o = true) ∧ (∀ o ∈ ops, Opd.pending g o = false) ∧ (∀ o ∈ ops, Opd.beyond g o = false)
      ∧ (sup = true → g.sup = true) := by
  unfold Group.check
  simp only [List.any_eq_true, Bool.not_eq_true', Bool.and_eq_true]
  split
  · rename_i h
    obtain ⟨o, ho, h⟩ := h
    simp only [reduceCtorEq, false_iff]
    exact fun e => by simp [e.1 o ho] at h
  · rename_i h1
    split
    · rename_i h4
      simp only [reduceCtorEq, false_iff]
      exact fun e => by simp [e.2.2.2 h4.1] at h4
    · rename_i h4
      split
      · rename_i h
        obtain ⟨o, ho, h⟩ := h
        simp only [reduceCtorEq, false_iff]
        exact fun e => by simp [e.2.1 o ho] at h
      · rename_i h2
        split
        · rename_i h
          obtain ⟨o, ho, h⟩ := h
          simp only [reduceCtorEq, false_iff]
          exact fun e => by simp [e.2.2.1 o ho] at h
        · rename_i h3
          simp only [true_iff]
          refine ⟨fun o ho => ?_, fun o ho => ?_, fun o ho => ?_, fun e => ?_⟩
          · by_contra hc
            exact h1 ⟨o, ho, by simpa using hc⟩
          · by_contra hc
            exact h2 ⟨o, ho, by simpa using hc⟩
          · by_contra hc
            exact h3 ⟨o, ho, by simpa using hc⟩
          · by_contra hc
            exact h4 ⟨e, by simpa using hc⟩

/-- What the end of an instruction does to the state: it writes the issuing group alone. -/
theorem Iss.done_eq (I : Iss) (s : State) (G : Group) (n : Nat) (m : Bool) :
    I.done s G n m = s.setGrp I.c I.g (G.retire I.k (I.sp.pc + BitVec.ofNat 17 n) m) := rfl

/-- R152, R156: what raising a cause does, by the group's mode and pending flags. -/
theorem State.raise_cases (s : State) (c g k : Nat) (cause : BitVec 8) (mask : Mask) (addrs : SMap Dword) (pc : Pc) (done tick : Bool)
    {x : Group} (hx : s.grp c g = some x) :
    s.raise c g k cause mask addrs pc done tick =
      if x.sup then s.stopCtx c x.ctx 0xEC
      else
        let y := (if tick then x.tick (some k) else x).goto k pc
        let t := s.setGrp c g { y with trapPend := some ⟨cause, mask, addrs, pc, done, k⟩, park := .run }
        if y.pend.isEmpty then t.enterTrap c g else t := by
  simp [State.raise, hx]

end Sys2Proof.Machine
end

