-- ==== Sys2Proof/Tests/Slice0.lean ====
section
/-! SUPPORT. The model's own tests: ill-formed terms that are refused, words of the spec's encodings that decode to their instructions, one
step of instructions on small states with results that the spec or a hand calculation from it gives, and, for every statement with
hypotheses, concrete states and operands that meet them (`witness_` and the statement's name). -/

namespace Sys2Proof.Tests

open Sys2Proof Sys2Proof.Machine Sys2Proof.Claims

/-! ### Ill-formed terms: one for each check of `wellFormed`, and beside it the nearest term that is an instruction -/

theorem test_wf_pair : wellFormed (.mulwI32 false 1 2 3) = false ∧ wellFormed (.mulwI32 false 1 2 4) = true := by decide
theorem test_wf_short_mov : wellFormed (.mov_16 false 0 0) = false ∧ wellFormed (.mov_16 false 1 0) = true := by decide
theorem test_wf_cond : wellFormed (.icmpI32 false 0 1 2 6 0) = false ∧ wellFormed (.icmpI32 false 0 1 2 5 0) = true := by decide
theorem test_wf_fcond : wellFormed (.fcmpF32 false 0 1 2 8 0) = false ∧ wellFormed (.fcmpF32 false 0 1 2 7 0) = true := by decide
theorem test_wf_scope : wellFormed (.fence false 0 6) = false ∧ wellFormed (.fence false 0 5) = true := by decide
theorem test_wf_fence_kind : wellFormed (.fence false 3 0) = false ∧ wellFormed (.fence false 2 0) = true := by decide
theorem test_wf_selector : wellFormed (.gets false 7 0) = false ∧ wellFormed (.gets false 8 0) = true := by decide
theorem test_wf_wide_selector : wellFormed (.gets false 0x11 1) = false ∧ wellFormed (.gets false 0x11 2) = true := by decide
theorem test_wf_size : wellFormed (.ld false 0 0 0 0 5 0 0) = false ∧ wellFormed (.ld false 0 0 0 0 4 0 4) = true := by decide
theorem test_wf_quad : wellFormed (.ld false 0 0 0 0 4 0 2) = false := by decide
theorem test_wf_sign_extend : wellFormed (.ld false 1 0 0 0 2 0 0) = false ∧ wellFormed (.ld false 1 0 0 0 1 0 0) = true := by decide
theorem test_wf_lds_size : wellFormed (.lds false 0 0 0 4 0 100) = false ∧ wellFormed (.lds false 0 0 0 3 0 100) = true := by decide
theorem test_wf_lds_destination : wellFormed (.lds false 0 0 0 2 0 95) = false ∧ wellFormed (.lds false 0 0 0 2 0 96) = true := by decide
theorem test_wf_ldx : wellFormed (.ldx false 0 0 0 0 1 0 0) = false ∧ wellFormed (.ldx false 1 0 0 0 2 0 0) = false ∧ wellFormed (.ldx false 0 0 0 0 3 0 0) = true := by decide
theorem test_wf_store_pair : wellFormed (.st false 0 0 0 3 0 1) = false ∧ wellFormed (.st false 0 0 0 3 0 2) = true := by decide
theorem test_wf_source_pair : wellFormed (.addI64 false 1 2 4) = false ∧ wellFormed (.addI64 false 2 3 4) = false ∧ wellFormed (.addI64 false 2 2 4) = true := by decide
theorem test_wf_table_length : wellFormed (.jtab false 0 1) = false ∧ wellFormed (.jtab false 1 1) = true := by decide
theorem test_wf_convert : wellFormed (.cvt false 0 13 6 1 2) = false ∧ wellFormed (.cvt false 0 6 7 1 2) = true := by decide
theorem test_wf_acc_format : wellFormed (.acc2t false 5 0 0 0) = false ∧ wellFormed (.acc2t false 6 0 0 0) = true := by decide
theorem test_wf_convert_toward_zero : wellFormed (.cvtz false 0 6 6 1 2) = false ∧ wellFormed (.cvtz false 0 5 4 1 2) = false ∧ wellFormed (.cvtz false 0 6 5 1 2) = true := by decide
theorem test_wf_tile : wellFormed (.acc2t false 6 0 64 0) = false ∧ wellFormed (.acc2t false 6 0 63 0) = true := by decide
theorem test_wf_slot : wellFormed (.mbandW false 8 0) = false ∧ wellFormed (.mbandW false 7 0) = true := by decide
theorem test_wf_mma_format : wellFormed (.mma false 0 0 9 0 0 0) = false ∧ wellFormed (.mma false 1 0 6 0 0 0) = false ∧ wellFormed (.mma false 1 0 7 0 0 0) = true := by decide
theorem test_wf_acc_register : wellFormed (.acc2v false 6 0 0 4 0) = false ∧ wellFormed (.acc2v false 6 0 0 8 0) = true := by decide
theorem test_wf_cas_operand : wellFormed (.atomCas false 0 9 1 6) = false ∧ wellFormed (.atomCas false 0 8 1 6) = true := by decide
theorem test_wf_cas64_operand : wellFormed (.atomCasI64 false 0 6 1 4) = false ∧ wellFormed (.atomCasI64 false 0 8 1 4) = true := by decide
theorem test_wf_octet : wellFormed (.bcopyG2l false 0 4 0 0) = false ∧ wellFormed (.bcopyG2l false 0 8 0 0) = true := by decide

/-! ### Decoding: words that the spec writes out (in hexadecimal), and words put together field by field, high bit first, from the formats of R73,
R75 and R84 and the layouts of the instructions' own rules -/

/-- Each word decodes to its instruction, with its length in parcels. -/
def allDecode (l : List (Nat × Instr × Nat)) : Bool :=
  l.all fun p => decide (decode (BitVec.ofNat 16 p.1) (BitVec.ofNat 16 (p.1 / 65536)) = .instr p.2.1 p.2.2)

theorem test_decode_short : allDecode
  [(0b00101_00011_0010_0_0, .addI32_16 false 5 3, 1),
   (0b10000_11111_0001_1_0, .movi_16 true 0x10 31, 1),
   (0b11111_00001_1100_0_0, .sari_16 false 31 1, 1),
   (0b00010_00001_1111_0_0, .fsubF32_16 false 2 1, 1),
   (0b00000_00000_0000_0_0, .nop, 1),
   (0b00000_00000_0000_1_0, .nopMarker, 1),
   (0b00001_00000_0000_0_0, .mov_16 false 1 0, 1)] = true := by decide

theorem test_decode_integer : allDecode
  [(0b00_0000011_0000001_0000001_0000000_0_1, .addI32 false 3 1 1, 2),
   (0b11_1100011_0000010_0000100_0000001_0_1, .mulwI32 false 99 2 4, 2),
   (0b10_0000001_0000010_0000110_0000010_1_1, .madwN32 true 1 2 6, 2),
   (0b01_0000001_0000010_0000011_0000011_0_1, .maxI32 false 1 2 3, 2),
   (0b11_0000001_0000010_0000011_0000100_0_1, .andn false 1 2 3, 2),
   (0b10_0000001_0000010_0000011_0000101_0_1, .sar false 1 2 3, 2),
   (0b01_0000000_0000010_0000011_0000110_0_1, .clz false 2 3, 2),
   (0b10_0000001_0000010_0000011_0000111_0_1, .bfi false 1 2 3, 2),
   (0b01_0000000_0000010_0000011_0001000_0_1, .negI32 false 2 3, 2),
   (0b11_0000001_0000010_0000100_0001001_0_1, .shrN64 false 1 2 4, 2)] = true := by decide

theorem test_decode_packed : allDecode
  [(0x71881229, .shrrnI16 false 99 8 9, 2),
   (0x02021031, .pmad2I16 false 4 2 8, 2),
   (0b11_0000000_0000001_0000010_0001010_0_1, .satnI8 false 1 2, 2),
   (0b10_0000001_0000010_0000011_0001011_0_1, .pmulI16x2 false 1 2 3, 2),
   (0b10_0000001_0000010_0000011_0001100_0_1, .pmad4I8 false 1 2 3, 2),
   (0b00_0000001_0000010_0000011_0001101_0_1, .pack16 false 1 2 3, 2),
   (0b11_0000001_0000010_0000011_0001101_0_1, .pshrrI16x2 false 1 2 3, 2)] = true := by decide

theorem test_decode_compares : allDecode
  [(0b10_0000001_0000010_0000011_0010000_0_1, .selP0P3 false 2 1 2 3, 2),
   (0b11_0000001_0000010_0000011_0010001_0_1, .selP4P7 false 3 1 2 3, 2),
   (0x82812449, .icmpI32 false 2 5 1 2 2, 2),
   (0x00021055, .icmpiI32 false 0 0 2 1 0, 2),
   (0b11_0000001_0000010_0111_101_0010100_0_1, .fcmpF32 false 3 1 2 7 5, 2),
   (0b0000000000_0110_001_010_011_0010110_0_1, .plog false 6 1 2 3, 2)] = true := by decide

theorem test_decode_immediates : allDecode
  [(0b1111111111111110_0000101_0011000_0_1, .movi false 0xFFFE 5, 2),
   (0b0001001000110100_0000101_0011001_0_1, .movhi false 0x1234 5, 2),
   (0x32010669, .addi false 100 1 3, 2),
   (0x0081046D, .andi false 1 1 2, 2),
   (0b00_11_00111_0000010_0000001_0011110_0_1, .roli false 7 2 1, 2),
   (0b00_10_11111_0000010_0000001_0011110_0_1, .sari false 31 2 1, 2),
   (0b111111111_0000010_0000001_0011111_0_1, .muli false 0x1FF 2 1, 2)] = true := by decide

theorem test_decode_floats : allDecode
  [(0b11_0000001_0000010_0000011_0100000_0_1, .ffmaF32 false 1 2 3, 2),
   (0b10_0000000_0000010_0000011_0100001_0_1, .fabsF32 false 2 3, 2),
   (0b10_0000001_0000010_0000011_0100010_0_1, .hfmaBf16x2 false 1 2 3, 2),
   (0b11_0000001_0000010_0000011_0100011_0_1, .hmaxF16x2 false 1 2 3, 2),
   (0b10_0000000_0000010_0000011_0100100_0_1, .exp2F32 false 2 3, 2),
   (0b00_0000001_0000010_0000011_0100101_0_1, .fdivF32 false 1 2 3, 2),
   (0xB3850899, .cvt false 1 6 7 5 4, 2),
   (0b0_0110_0100_0000010_0000011_0100111_0_1, .cvtz false 0 6 4 2 3, 2),
   (0b00_1100101_0000010_0001010_0101000_0_1, .qntFp4b8 false 101 2 10, 2),
   (0b10_1100101_0001010_0001100_0101000_0_1, .dqntFp4b8 false 101 10 12, 2)] = true := by decide

theorem test_decode_crossLane : allDecode
  [(0b11_0000001_0000010_0000011_0110000_0_1, .lxchRev false 1 2 3, 2),
   (0b01_0000001_0000010_0000011_0110001_0_1, .slideDn1H false 1 2 3, 2),
   (0b10_0000000_0000010_0000011_0110010_0_1, .lmaskPfx false 2 3, 2),
   (0b11_0000000_0000010_0000011_0110011_0_1, .gredAddF32 false 2 3, 2)] = true := by decide

theorem test_decode_control : allDecode
  [(0xFFFF80E5, .brp false 0x7FFFC 0 0, 2),
   (0x000140E5, .brp false 10 0 0, 2),
   (0x000010E1, .bra false 8, 2),
   (0xFFFFF8E9, .call false 0x7FFFFC, 2),
   (0x000000ED, .ret false, 2),
   (0b000000111_0000010_0000000_0111100_0_1, .jtab false 7 2, 2),
   (0b000000000000001100_01001_0111101_0_1, .loop false 12 9, 2),
   (0x000000F9, .exit false, 2),
   (0x000000FD, .nop32 false, 2),
   (0x400000FD, .waitall false, 2),
   (0x800000FD, .yield false, 2)] = true := by decide

theorem test_decode_system : allDecode
  [(0x00000B01, .trap false 5, 2),
   (0x00000105, .rft false, 2),
   (0x04000B09, .gets false 8 5, 2),
   (0x0400010D, .sets false 8 0, 2),
   (0b000_0000001_000010_0000011_1000100_0_1, .mappg false 1 2 3, 2),
   (0b0000000_000_000010_0000000_1000101_0_1, .tlbinvPage false 2, 2),
   (0b0000000_001_000000_0000000_1000101_0_1, .tlbinvCtx false, 2),
   (0x00000119, .halt false, 2)] = true := by decide

theorem test_decode_memory : allDecode
  [(0x06C21521, .ld false 0 0 0 3 3 2 10, 2),
   (0x48820F25, .st false 1 0 4 2 2 7, 2),
   (0x48B01921, .ld false 0 1 0 4 2 48 12, 2),
   (0x00F0C929, .lds false 0 0 0 3 48 100, 2),
   (0x26020131, .pref false 2 3 2, 2),
   (0b0_0_01_011_010_000001_0000100_1001011_0_1, .ldx false 0 0 1 3 2 1 4, 2),
   (0xF2840935, .ptroff false 101 4 4, 2),
   (0b01_0000000_0000010_0000011_1001101_0_1, .ptrsp false 2 3, 2),
   (0x00002939, .fence false 2 4, 2)] = true := by decide

theorem test_decode_atomics : allDecode
  [(0x82010D41, .atomAddI32 false 4 8 1 6, 2),
   (0x62010D65, .atomCas false 3 8 1 6, 2),
   (0b001_0000010_000011_0000100_1011100_0_1, .atomFaddF32 false 1 2 3 4, 2),
   (0x82421575, .redFaddBf16x2 false 4 9 2, 2),
   (0b100_0001000_000011_0000100_1011011_0_1, .atomCasI64 false 4 8 3 4, 2)] = true := by decide

theorem test_decode_barriers : allDecode
  [(0x01000781, .barArv false 2 3, 2),
   (0x81030181, .barWait false 2 3, 2),
   (0xC1000181, .barSync false 2, 2),
   (0x01050185, .binit false 2 5, 2),
   (0x00620989, .attach false 98 4, 2),
   (0x0000018D, .detach false, 2),
   (0x00000191, .trigger false, 2),
   (0x00311595, .qpush false 49 10, 2),
   (0x40051995, .qpop false 5 12, 2),
   (0x00330199, .publish false 51, 2)] = true := by decide

theorem test_decode_matrix : allDecode
  [(0x060987E1, .mma false 0 1 8 1 12 3, 2),
   (0x000007ED, .mzero false 3, 2),
   (0x403001ED, .mperm false 48, 2),
   (0x80E501ED, .mbandW false 1 101, 2),
   (0xA1E401ED, .mbandA false 3 100, 2),
   (0x007001E5, .mldb false 1 48, 2),
   (0x1C0707E9, .acc2t false 7 0 7 3, 2),
   (0x989007E9, .acc2v false 6 0 1 16 3, 2),
   (0x050101AD, .tsetup false 5 1, 2),
   (0x450001AD, .tfree false 5, 2),
   (0x85000DAD, .tstate false 5 6, 2),
   (0xC50001AD, .tdrain false 5, 2)] = true := by decide

theorem test_decode_engines : allDecode
  [(0x483151A1, .bcopyG2l false 1 16 49 40, 2),
   (0x004219A5, .lcopy false 1 2 12, 2),
   (0x000001A9, .cseal false 0, 2),
   (0x400001A9, .cwait false 0, 2),
   (0x3AF401B1, .fork false 117 116, 2),
   (0x00000DB5, .rdv false 6, 2),
   (0x400001B5, .endseq false, 2),
   (0x21720DB9, .coll false 2 5 50 6, 2),
   (0x30330FBD, .dpost false 3 51 7, 2)] = true := by decide

/-! ### One instruction on one group: results given by the spec's examples, or worked by hand from its rules -/

/-- A group of core 0 whose one split stands at parcel 16. -/
def aGroup (v : SMap (SMap Word)) (s : SMap Word := []) (mask : Mask := 1) : Group where
  uid := 1
  ctx := 0
  wg := 0
  gid := 0
  nregs := 96
  block := 0
  v := v
  sregs := s
  slots := [(0, { pc := 16, mask := mask })]

/-- The module with that group as the issuer. -/
def onCore (k : Core) (g : Group) : State where
  __ := State.reset
  cores := [(0, { k with groups := [(0, g)] })]
  cur := some (.split 0 0 0)

/-- The group after an instruction. -/
def after (i : Instr) (g : Group) : Option Group :=
  match exec i (onCore {} g) with
  | .next t => t.grp 0 0
  | _ => none

/-- The word in v3, lane 0, and `stat.sat`, after an instruction on v1, v2 and v3. -/
def v3After (i : Instr) (a b : Word) (d : Word := 0) : Option (Word × Bool) :=
  (after i (aGroup [(1, [(0, a)]), (2, [(0, b)]), (3, [(0, d)])])).map fun g => (g.vget 3 0, g.sat)

/-- The pair v4, lane 0, after an instruction on v1, v2 and v4. -/
def v4After (i : Instr) (a b : Word) (d : Dword := 0) : Option Dword :=
  (after i (aGroup [(1, [(0, a)]), (2, [(0, b)]), (4, [(0, d.setWidth 32)]), (5, [(0, d.extractLsb' 32 32)])])).map fun g => g.rd64 4 0

/-- The words of a register, lanes 0 to 3, after an instruction on a group of four lanes. -/
def lanesAfter (i : Instr) (r : Nat) (a b : SMap Word) (mask : Mask := 0xF) : Option (List Word) :=
  (after i (aGroup [(1, a), (2, b)] [] mask)).map fun g => (List.range 4).map (g.vget r)

theorem test_add_wraps : v3After (.addI32 false 2 1 3) 0xFFFFFFFF 2 = some (1, false) := by decide
theorem test_adds_clamps : v3After (.addsI32 false 2 1 3) 0x7FFFFFFF 1 = some (0x7FFFFFFF, true) := by decide
theorem test_subs_clamps : v3After (.subsI32 false 2 1 3) 0x80000000 1 = some (0x80000000, true) := by decide
theorem test_subs_exact : v3After (.subsI32 false 2 1 3) 5 7 = some (0xFFFFFFFE, false) := by decide
theorem test_mulhi_signed : v3After (.mulhiI32 false 2 1 3) 0xFFFFFFFF 0xFFFFFFFF = some (0, false) := by decide
theorem test_mulhi_unsigned : v3After (.mulhiN32 false 2 1 3) 0xFFFFFFFF 0xFFFFFFFF = some (0xFFFFFFFE, false) := by decide
theorem test_mulw : v4After (.mulwI32 false 2 1 4) 0xFFFFFFFE 3 = some 0xFFFFFFFFFFFFFFFA := by decide
theorem test_madw_unsigned : v4After (.madwN32 false 2 1 4) 0xFFFFFFFF 0xFFFFFFFF 1 = some 0xFFFFFFFE00000002 := by decide
theorem test_mad_reads_destination : v3After (.madI32 false 2 1 3) 3 4 5 = some (17, false) := by decide
theorem test_sad : v3After (.sadN32 false 2 1 3) 3 10 5 = some (12, false) := by decide
theorem test_min_signed : v3After (.minI32 false 2 1 3) 0xFFFFFFFF 1 = some (0xFFFFFFFF, false) := by decide
theorem test_min_unsigned : v3After (.minN32 false 2 1 3) 0xFFFFFFFF 1 = some (1, false) := by decide
theorem test_andn : v3After (.andn false 2 1 3) 0xFF 0x0F = some (0xF0, false) := by decide
theorem test_shift_amount_mod_32 : v3After (.shl false 2 1 3) 1 33 = some (2, false) := by decide
theorem test_sar : v3After (.sar false 2 1 3) 0x80000000 31 = some (0xFFFFFFFF, false) := by decide
theorem test_clz_zero : v3After (.clz false 1 3) 0 0 = some (32, false) := by decide
theorem test_ffs_zero : v3After (.ffs false 1 3) 0 0 = some (32, false) := by decide
theorem test_brev : v3After (.brev false 1 3) 1 0 = some (0x80000000, false) := by decide
/-- R109: |−2^31| is 0x80000000, and `stat.sat` stays. -/
theorem test_abs_min : v3After (.absI32 false 1 3) 0x80000000 0 = some (0x80000000, false) := by decide
/-- R113, the table after it: lanes 0, 1 and 4. -/
theorem test_pmad2_clamps : v3After (.pmad2I16 false 2 1 3) 0xFFFE7530 0x00054E20 0x77359400 = some (0x7FFFFFFF, true) := by decide
theorem test_pmad2_exact : v3After (.pmad2I16 false 2 1 3) 0x0000FFFB 0x00004000 0 = some (0xFFFEC000, false) := by decide
/-- R111, the same table: 65 536 clamps to 0x7FFF, 2.5 and −2.5 round to even. -/
theorem test_shrrn_clamps : v3After (.shrrnI16 false 2 1 3) 0x7FFFFFFF 15 = some (0x7FFF, true) := by decide
theorem test_shrrn_tie : v3After (.shrrnI16 false 2 1 3) 0x00014000 15 = some (2, false) := by decide
theorem test_shrrn_tie_negative : v3After (.shrrnI16 false 2 1 3) 0xFFFEC000 15 = some (0xFFFFFFFE, false) := by decide
theorem test_padd_clamps_each : v3After (.paddI16x2 false 2 1 3) 0x7FFF0001 0x00010002 = some (0x7FFF0003, true) := by decide
theorem test_pack : v3After (.pack16 false 2 1 3) 0x11112222 0x33334444 = some (0x44442222, false) := by decide
theorem test_movhi_keeps_low : v3After (.movhi false 0x1234 3) 0 0 0xABCDEF01 = some (0x1234EF01, false) := by decide
theorem test_movi_sign : v3After (.movi false 0xFFFE 3) 0 0 = some (0xFFFFFFFE, false) := by decide
theorem test_short_addi_sign : v3After (.addi_16 false 0x1F 3) 0 0 5 = some (4, false) := by decide
theorem test_short_shri_unsigned : v3After (.shri_16 false 0x1F 3) 0 0 0x80000000 = some (1, false) := by decide
theorem test_add64_carries : (after (.addI64 false 2 0 4) (aGroup [(0, [(0, 0xFFFFFFFF)]), (2, [(0, 1)])])).map (fun g => g.rd64 4 0) = some 0x100000000 := by
  decide

/-! Floating point (R121 to R129) -/

theorem test_fadd_tie_to_even : v3After (.faddF32 false 2 1 3) 0x3F800000 0x33800000 = some (0x3F800000, false) := by decide
theorem test_fadd_infinities : v3After (.faddF32 false 2 1 3) 0x7F800000 0xFF800000 = some (0x7FC00000, false) := by decide
theorem test_fsub_zero_sign : v3After (.fsubF32 false 2 1 3) 0x80000000 0 = some (0x80000000, false) := by decide
theorem test_fmul_subnormal : v3After (.fmulF32 false 2 1 3) 0x00800000 0x3F000000 = some (0x00400000, false) := by decide +kernel
theorem test_ffma_one_rounding : v3After (.ffmaF32 false 2 1 3) 0x3F800001 0x3F800001 0xBF800000 = some (0x34800000, false) := by decide
theorem test_fmin_zero : v3After (.fminF32 false 2 1 3) 0 0x80000000 = some (0x80000000, false) := by decide
theorem test_fmax_nan : v3After (.fmaxF32 false 2 1 3) 0x7FC12345 0x40000000 = some (0x40000000, false) := by decide
theorem test_fdiv_by_zero : v3After (.fdivF32 false 2 1 3) 0x3F800000 0x80000000 = some (0xFF800000, false) := by decide
theorem test_frnd : v3After (.frndF32 false 1 3) 0xBECCCCCD 0 = some (0x80000000, false) := by decide
theorem test_fcls : v3After (.fclsF32 false 1 3) 0x80000001 0 = some (4, false) := by decide
theorem test_rcp_power : v3After (.rcpF32 false 1 3) 0x40800000 0 = some (0x3E800000, false) := by decide
set_option maxRecDepth 4000 in
theorem test_rsq_power : v3After (.rsqF32 false 1 3) 0x40800000 0 = some (0x3F000000, false) := by decide
theorem test_exp2_integer : v3After (.exp2F32 false 1 3) 0x40400000 0 = some (0x41000000, false) := by decide
theorem test_log2_one : v3After (.log2F32 false 1 3) 0x3F800000 0 = some (0, false) := by decide
theorem test_hadd_nan_element : v3After (.haddBf16x2 false 2 1 3) 0x7F803F80 0xFF803F80 = some (0x7FC04000, false) := by decide
/-- R128, its example. -/
theorem test_cvt_sat : v3After (.cvt false 1 6 7 1 3) 0x7F7FFFFF 0 = some (0x7F7F, false) := by decide
theorem test_cvt_no_sat : v3After (.cvt false 0 6 7 1 3) 0x7F7FFFFF 0 = some (0x7F80, false) := by decide

/-! Lanes and predicates (R118 to R120, R130 to R137) -/

theorem test_icmp_signed : (after (.icmpI32 false 3 2 1 2 2) (aGroup [(1, [(0, 0xFFFFFFFF), (1, 5)]), (2, [(0, 1), (1, 1)])] [] 3)).map
    (fun g => (g.pget 2, g.pget 3)) = some (1, 2) := by decide
theorem test_plog_xor : (after (.plog false 6 1 2 3) { aGroup [] [] 0xF with p := [(1, 0x5), (2, 0x3)] }).map (fun g => g.pget 3) = some 6 := by decide
theorem test_sel : (after (.selP4P7 false 1 2 1 3) { aGroup [(1, [(0, 7), (1, 8)]), (2, [(0, 9), (1, 10)])] [] 3 with p := [(5, 2)] }).map
    (fun g => (g.vget 3 0, g.vget 3 1)) = some (9, 8) := by decide
theorem test_pick_inactive : lanesAfter (.lxchPick false 2 1 3) 3 [(0, 5), (3, 9)] [(0, 3), (1, 3), (2, 0)] 0x7 = some [0, 0, 5, 0] := by decide
theorem test_rotr : lanesAfter (.lxchRotr false 2 1 3) 3 [(0, 5), (1, 6), (2, 7)] [(1, 1), (2, 1), (3, 1)] = some [5, 5, 6, 7] := by decide
theorem test_slide_up_half : lanesAfter (.slideUp1H false 2 1 3) 3 [(0, 0x00020001), (1, 0x00040003)] [(31, 0x00090008)] 0x80000003
    = some [0x00010009, 0x00030002, 0, 0] := by decide
theorem test_prefix_count : lanesAfter (.lmaskPfx false 1 3) 3 [(0, 1), (2, 1), (3, 1)] [] = some [0, 1, 1, 2] := by decide
theorem test_first_none : lanesAfter (.lmaskFirst false 1 3) 3 [] [] 0x3 = some [32, 32, 0, 0] := by decide
/-- R137, its example: the tree gives 1.0. -/
theorem test_gred_tree : lanesAfter (.gredAddF32 false 1 3) 3 [(0, 0x3F800000), (1, 0x33800000), (2, 0x33800000)] [] = some [0x3F800000, 0x3F800000, 0x3F800000, 0x3F800000] := by
  decide

/-- R130, its example: the lanes' values. -/
def qntGroup : Group :=
  aGroup [(2, [(0, 0x3E99999A), (1, 0xBF8CCCCD), (2, 0x4019999A), (3, 0x3D4CCCCD), (4, 0xBF333333), (5, 0x3FF9999A), (7, 0x40400000)])] [(5, 0x3F80)] 0xFF

theorem test_qnt : (after (.qntFp4b8 false 101 2 10) qntGroup).map (fun g => (g.vget 10 0, g.vget 11 7)) = some (0x706B06C1, 0x40) := by decide

theorem test_dqnt : (after (.dqntFp4b8 false 101 10 12) (aGroup [(10, [(4, 0x706B06C1), (7, 0x706B06C1)]), (11, [(4, 0x40), (7, 0x40)])] [(5, 0x3F80)] 0x90)).map
    (fun g => (g.vget 12 4, g.vget 12 7)) = some (0xBF400000, 0x40400000) := by decide

/-! Control (R139 to R157): the run of the divided group after R151 -/

/-- Slots as (PC, mask, depth, frame). -/
def slotsAfter (i : Instr) (g : Group) : Option (List (Nat × Pc × Mask × Nat × Nat)) :=
  (after i g).map fun g => g.slots.map fun p => (p.1, p.2.pc, p.2.mask, p.2.depth, p.2.frame)

/-- A split at a PC. -/
def split (pc : Pc) (mask : Mask) (depth frame : Nat) : Split := { pc := pc, mask := mask, frame := frame, depth := depth }

set_option maxRecDepth 4000 in
theorem test_brp_divides : slotsAfter (.brp false 10 0 0) { aGroup [] with p := [(0, 0x55555555)], slots := [(0, split 6 0xFFFFFFFF 0 0)] }
    = some [(0, 8, 0xAAAAAAAA, 0, 0), (1, 16, 0x55555555, 0, 1)] := by decide
theorem test_call : slotsAfter (.call false 4) { aGroup [] with slots := [(0, split 8 0xAAAAAAAA 0 0), (1, split 16 0x55555555 0 1)] }
    = some [(0, 12, 0xAAAAAAAA, 1, 0), (1, 16, 0x55555555, 0, 1)] := by decide
theorem test_ret_merges : slotsAfter (.ret false)
    { aGroup [] with frames := [(0, [(0, 18)])], slots := [(0, split 14 0x55555555 1 0), (1, split 18 0xAAAAAAAA 0 1)] }
    = some [(0, 18, 0xFFFFFFFF, 0, 0)] := by decide
theorem test_loop_counts : (after (.loop false 4 9) (aGroup [] [(9, 2)])).map (fun g => (g.sget 9, g.slots.map fun p => p.2.pc)) = some (1, [12]) := by decide
theorem test_loop_ends : (after (.loop false 4 9) (aGroup [] [(9, 1)])).map (fun g => (g.sget 9, g.slots.map fun p => p.2.pc)) = some (0, [18]) := by decide
theorem test_exit : (after (.exit false) (aGroup [] [] 0xF)).map (fun g => (g.exited, g.slots.length)) = some (0xF, 0) := by decide
/-- R29's table: the mask in bits 31:0, the PC from bit 32, the depth from bit 49, the frame from bit 64, the age from bit 96. -/
theorem test_spill_record : ({ pc := 0x1FFFF, mask := 0x80000001, depth := 16, frame := 31, age := 2048 } : Split).record = 0x000008000000001F0021FFFF80000001 := by decide
theorem test_pending_operand : (after (.addI32 false 2 1 3) { aGroup [] with pend := [2] }).map (fun g => g.trapPend.map fun q => (q.cause, q.pc, q.done))
    = some (some (0x03, 16, false)) := by decide
theorem test_marker_parks : (after (.addI32 true 2 1 3) { aGroup [] with pend := [7] }).map (fun g => g.park) = some .marker := by decide
theorem test_trap_waits_for_results : (after (.trap false 5) { aGroup [] with pend := [7] }).map (fun g => g.trapPend.map fun q => (q.cause, q.pc, q.done))
    = some (some (0xC5, 18, true)) := by decide
set_option maxRecDepth 20000 in
/-- R20, R158: `trapsplit` of a software trap: the mask, the next parcel (18) and done. -/
theorem test_trap_enters : (after (.trap false 5) (aGroup [] [] 0xF)).map (fun g => (g.sup, g.trapcause, g.trapmask, g.trapsplit)) =
    some (true, 0xC5, 0xF, 0x000200120000000F) := by decide +kernel
theorem test_rft_user : (after (.rft false) { aGroup [] with pend := [7] }).map (fun g => g.trapPend.map fun q => q.cause) = some (some 0x0A) := by decide
theorem test_gets_stat : (after (.gets false 8 5) { aGroup [] with sat := true }).map (fun g => g.vget 5 0) = some 1 := by decide
theorem test_sets_stat : (after (.sets false 8 0) (aGroup [(0, [(0, 1)])])).map (fun g => g.sat) = some true := by decide
theorem test_reserved_encoding : decode 0x0039 0 = .reject 0x01 ∧ decode 0x0119 0x0001 = .reject 0x02 := by decide

/-! ### Concrete states and operands that meet the hypotheses of the statements -/

/-- The issuer of `onCore`. -/
def issuer (g : Group) : Iss := ⟨0, 0, 0, g, (g.slots.look 0).getD (split 0 0 0 0)⟩

theorem issues (k : Core) (g : Group) (h : (g.slots.look 0).isSome = true) : Issues (onCore k g) (issuer g) := by
  refine ⟨rfl, ?_⟩
  have hg : State.grp (onCore k g) 0 0 = some g := rfl
  obtain ⟨sp, hs⟩ := Option.isSome_iff_exists.mp h
  simp only [State.iss, hg, hs, issuer, Option.getD_some]

theorem usable (g : Group) (ops : List (Nat × Nat))
    (h : (ops.all fun o => decide (o.1 % o.2 = 0) && (List.range o.2).all fun j =>
      decide (o.1 + j ∉ g.pend) && (decide (o.1 + j < g.nregs) || decide (96 ≤ o.1 + j))) = true) : Usable g ops := by
  intro o ho
  have ho' := List.all_eq_true.mp h o ho
  simp only [Bool.and_eq_true, decide_eq_true_eq, List.all_eq_true, List.mem_range, Bool.or_eq_true] at ho'
  refine ⟨ho'.1, fun r h1 h2 => ?_⟩
  have := ho'.2 (r - o.1) (by omega)
  rwa [Nat.add_sub_cancel' h1] at this

/-- A workgroup of core 0: 4 barrier words, 3 tiles, 2 accumulators, elastic from 1 to 4 groups, its program in the first region. -/
def aWg : Workgroup where
  uid := 2
  ctx := 0
  launch := 9
  gang := 5
  rank := 0
  cls := 0
  nregs := 96
  base := 0
  size := 65536
  tiles := [0, 1, 2]
  accs := [0, 1]
  bars := 4
  emin := 1
  emax := 4
  rbase := 0
  rlen := 7680
  entry := 0
  aentry := 8
  args := 0
  widths := [5, 6, 10, 0, 0, 0]
  coords := [0, 0, 0]

/-- A core that runs it, with the first half of its local store; barrier word 0 is uninitialised, word 1 expects one arrival, word 2 two, of which
one has come. -/
def aCore : Core where
  ctx := some 0
  wgs := [(0, aWg)]
  halves := [(0, { owner := some 0 })]
  ls := [(8, 1), (10, 1), (16, 2), (18, 1)]

/-- A plain group of 32 lanes. -/
def g0 : Group := aGroup [] [] 0xFFFFFFFF
/-- The group in a handler. -/
def gSup : Group := { g0 with sup := true }

/-! Encodings and the step -/

theorem witness_DecodeOfEncode : wellFormed (.addI32 false 2 1 3) = true ∧ encode (.addI32 false 2 1 3) = some (0x01010601, 2) := by decide
theorem witness_EncodeOfDecode : decode 0x0B01 0 = .instr (.trap false 5) 2 := by decide
theorem witness_RejectionCauses : (0xFFFE : BitVec 16).getLsbD 0 = false ∧ decode 0x0039 0 = .reject 0x01 := by decide
theorem witness_StepKeepsMemoryCanonical : ∃ t, Memory.wf State.reset.mem = true ∧ step State.reset = .next t := ⟨_, rfl, rfl⟩
theorem witness_StepAlwaysAnswers : ∀ dt ev rest, State.reset.agenda = .event dt ev :: rest → encode ev = none := by
  intro dt ev rest h; exact absurd h (by simp [State.reset])

/-- The agenda gives the issue to the split. -/
def issueNext (k : Core) (g : Group) : State := { onCore k g with agenda := [.issue (.split 0 0 0)], cur := none }

theorem witness_StepRunsDecodedInstruction_agenda :
    (issueNext aCore g0).agenda = .issue (.split 0 0 0) :: [] ∧ (issueNext aCore g0).iss 0 0 0 = some (issuer g0)
    ∧ decode (((issueNext aCore g0).core 0).parcel 16) (((issueNext aCore g0).core 0).parcel 17) = .instr .nop 1
    ∧ ((issueNext aCore g0).region 0 g0).1 ≤ 16 ∧ 16 + 1 ≤ ((issueNext aCore g0).region 0 g0).2 ∧ 0 < 1 :=
  ⟨rfl, rfl, by decide, by decide, by decide, by decide⟩

/-- The state in which the machine's own turn issues for quarter 0. -/
def quarterTurn : State := { onCore aCore g0 with cur := none }

theorem witness_StepRunsDecodedInstruction_turn : quarterTurn.agenda = [] ∧ quarterTurn.issued = false
    ∧ (quarterTurn.advance 1).nextUnit = some (6 * 0 + 0)
    ∧ State.quarterTakes { quarterTurn.advance 1 with lastUnit := 6 * 0 + 0, issued := true } 0 0 = some 0 := by decide

/-- A split at the end of its region, whose last parcel is `p0`. -/
def gEdge (pc : Pc) : Group := { g0 with slots := [(0, split pc 1 0 0)] }
def atEdge (p0 : BitVec 16) : State := issueNext { aCore with pstore := [(7679, p0)] } (gEdge 7679)

theorem witness_FetchOutsideRegion : (issueNext aCore (gEdge 7680)).iss 0 0 0 = some (issuer (gEdge 7680))
    ∧ ((issueNext aCore (gEdge 7680)).region 0 (gEdge 7680)).2 ≤ 7680 ∧ (gEdge 7680).sup = false :=
  ⟨rfl, by decide, rfl⟩
theorem halt_field (p1 : BitVec 16) : decode 793 p1 = .reject 2 := by
  have h : (793 + p1.toNat * 65536) / 4 % 128 = 70 := by omega
  have z : Dec.zf (793 + p1.toNat * 65536) 9 23 = false := by simp [Dec.zf]; omega
  show decode32 (793 + p1.toNat * 65536) = _
  unfold decode32
  rw [h]
  simp [z]
theorem no_major (p1 : BitVec 16) : decode 0x39 p1 = .reject 1 := by
  have h : (0x39 + p1.toNat * 65536) / 4 % 128 = 14 := by omega
  show decode32 (0x39 + p1.toNat * 65536) = _
  unfold decode32
  rw [h]
  rfl
/-- A first parcel at the last place of the region: of a major that has no instruction, HALT with a field that it cannot have, HALT, and ADD. -/
theorem witness_FetchOutsideRegion_second : (∀ p0 ∈ [(0x39 : BitVec 16), 793, 281, 0x0601], (atEdge p0).agenda = .issue (.split 0 0 0) :: []
      ∧ (atEdge p0).iss 0 0 0 = some (issuer (gEdge 7679)) ∧ ((atEdge p0).region 0 (gEdge 7679)).1 ≤ 7679 ∧ 7679 + 1 = ((atEdge p0).region 0 (gEdge 7679)).2
      ∧ ((atEdge p0).core 0).parcel 7679 = p0 ∧ p0.getLsbD 0 = true)
    ∧ (∀ p1, decode 0x39 p1 = .reject 1)
    ∧ (∀ p1 ∈ probes, decode 793 p1 = .reject 1 ∨ decode 793 p1 = .reject 2) ∧ (∃ p1 ∈ probes, decode 793 p1 = .reject 2)
    ∧ (∃ p1 ∈ probes, ∃ i, decode 281 p1 = .instr i 2) ∧ (∃ p1 ∈ probes, ∃ i, decode 0x0601 p1 = .instr i 2) := by
  have zero : (0 : BitVec 16) ∈ probes := List.mem_flatMap.mpr ⟨0, List.mem_range.mpr (by decide), List.mem_map.mpr ⟨0, List.mem_cons_self, rfl⟩⟩
  refine ⟨?_, no_major, fun p1 _ => .inr (halt_field p1), ⟨0, zero, halt_field 0⟩, ⟨0, zero, .halt false, by decide⟩, ⟨0, zero, .addI32 false 0 0 3, by decide⟩⟩
  intro p0 h
  simp only [List.mem_cons, List.not_mem_nil, or_false] at h
  rcases h with rfl | rfl | rfl | rfl <;> exact ⟨rfl, rfl, by decide, by decide, by decide, by decide⟩

/-! Lane instructions -/

/-- The boundary codes of the register operands: v95, s0 and s31. -/
theorem witness_WordsOfTwoSources : Issues (onCore {} g0) (issuer g0) ∧ Usable g0 [((95 : BitVec 7).toNat, 1), ((96 : BitVec 7).toNat, 1), ((127 : BitVec 7).toNat, 1)] :=
  ⟨issues _ _ rfl, usable _ _ (by decide)⟩
theorem witness_WordsOfOneSource : Issues (onCore {} g0) (issuer g0) ∧ Usable g0 [((127 : BitVec 7).toNat, 1), ((0 : BitVec 7).toNat, 1)]
    ∧ Usable g0 [((95 : BitVec 7).toNat, 1)] ∧ Usable g0 [((0 : BitVec 7).toNat, 1), ((126 : BitVec 7).toNat, 2)] :=
  ⟨issues _ _ rfl, usable _ _ (by decide), usable _ _ (by decide), usable _ _ (by decide)⟩
theorem witness_WordsOfThreeSources : Issues (onCore {} g0) (issuer g0) ∧ Usable g0 [((96 : BitVec 7).toNat, 1), ((95 : BitVec 7).toNat, 1), ((0 : BitVec 7).toNat, 1)] :=
  ⟨issues _ _ rfl, usable _ _ (by decide)⟩
theorem witness_SaturatingResults : Issues (onCore {} g0) (issuer g0) ∧ Usable g0 [((0 : BitVec 7).toNat, 1), ((95 : BitVec 7).toNat, 1), ((127 : BitVec 7).toNat, 1)] :=
  ⟨issues _ _ rfl, usable _ _ (by decide)⟩
theorem witness_PairResults : Issues (onCore {} g0) (issuer g0) ∧ Usable g0 [((94 : BitVec 7).toNat, 2), ((126 : BitVec 7).toNat, 2), ((96 : BitVec 7).toNat, 2)] :=
  ⟨issues _ _ rfl, usable _ _ (by decide)⟩
theorem witness_ShortForms : Issues (onCore {} g0) (issuer g0) ∧ Usable g0 [((31 : BitVec 5).toNat, 1), ((0 : BitVec 5).toNat, 1)] :=
  ⟨issues _ _ rfl, usable _ _ (by decide)⟩
theorem witness_NopsAndMarker : Issues (onCore {} g0) (issuer g0) ∧ g0.park = .run
    ∧ Issues (onCore {} { g0 with pend := [0] }) (issuer { g0 with pend := [0] }) ∧ ({ g0 with pend := [0] } : Group).sup = false
    ∧ 0 ∈ ({ g0 with pend := [0] } : Group).pend ∧ g0.deferred = [] :=
  ⟨issues _ _ rfl, rfl, issues _ _ rfl, rfl, by decide, rfl⟩
/-- A group with a deferred cause of lane 0. -/
def gDeferred : Group := { g0 with deferred := [⟨0x7E, [(0, 64)], false⟩] }
theorem witness_NopsAndMarker_deferred : Issues (onCore {} gDeferred) (issuer gDeferred) ∧ gDeferred.park = .run ∧ gDeferred.sup = false
    ∧ ∃ r ∈ gDeferred.deferred, ∃ p ∈ r.lanes, (issuer gDeferred).sp.mask.getLsbD p.1 = true :=
  ⟨issues _ _ rfl, rfl, rfl, _, List.mem_singleton.mpr rfl, _, List.mem_singleton.mpr rfl, by decide⟩
theorem witness_ComparesAndPredicates : Issues (onCore {} g0) (issuer g0) ∧ Usable g0 [((95 : BitVec 7).toNat, 1), ((127 : BitVec 7).toNat, 1)]
    ∧ Usable g0 [((0 : BitVec 7).toNat, 1), ((95 : BitVec 7).toNat, 1), ((127 : BitVec 7).toNat, 1)] :=
  ⟨issues _ _ rfl, usable _ _ (by decide), usable _ _ (by decide)⟩
theorem witness_ConversionsAndQuantisation : Issues (onCore {} g0) (issuer g0) ∧ Usable g0 [((94 : BitVec 7).toNat, 2), ((126 : BitVec 7).toNat, 2)]
    ∧ Usable g0 [((95 : BitVec 7).toNat, 1), ((127 : BitVec 7).toNat, 1)]
    ∧ Usable g0 [((94 : BitVec 7).toNat, 2), ((95 : BitVec 7).toNat, 1), ((101 : BitVec 7).toNat, 1)]
    ∧ Usable g0 [((94 : BitVec 7).toNat, 2), ((95 : BitVec 7).toNat, 1)]
    ∧ Usable g0 [((95 : BitVec 7).toNat, 1), ((94 : BitVec 7).toNat, 2), ((101 : BitVec 7).toNat, 1)] :=
  ⟨issues _ _ rfl, usable _ _ (by decide), usable _ _ (by decide), usable _ _ (by decide), usable _ _ (by decide), usable _ _ (by decide)⟩
theorem witness_CrossLaneResults : Issues (onCore {} g0) (issuer g0) ∧ Usable g0 [((95 : BitVec 7).toNat, 1), ((0 : BitVec 7).toNat, 1), ((127 : BitVec 7).toNat, 1)]
    ∧ Usable g0 [((127 : BitVec 7).toNat, 1), ((95 : BitVec 7).toNat, 1)] :=
  ⟨issues _ _ rfl, usable _ _ (by decide), usable _ _ (by decide)⟩
theorem witness_BitResults : (0x7FFFFFFF : Word) ≠ 0x80000000 := by decide

/-! Control, traps and special registers -/

/-- A group whose v1 holds 1 in every lane but lane 0, where it holds a value. -/
def indexed (x : Word) : Group := { g0 with v := [(1, (List.range 32).map fun L => (L, if L = 0 then x else 1))] }

set_option maxRecDepth 4000 in
theorem witness_BranchesAndJumpTables : Issues (onCore aCore (indexed 0)) (issuer (indexed 0)) ∧ Usable (indexed 0) [((1 : BitVec 7).toNat, 1)]
    ∧ (issuer (indexed 0)).sp.mask ≠ 0
    -- every index inside the table of 2, which ends within the region
    ∧ (∀ L, L < 32 → ¬ (((indexed 0).rd 1 L).toInt < 0 ∨ ((2 : BitVec 9).toNat : Int) ≤ ((indexed 0).rd 1 L).toInt))
    ∧ ((onCore aCore (indexed 0)).region 0 (indexed 0)).1 ≤ 16 + 2 ∧ 16 + 2 + 2 * 2 ≤ ((onCore aCore (indexed 0)).region 0 (indexed 0)).2
    -- lane 0 outside: one past the end, and below 0
    ∧ ((2 : BitVec 9).toNat : Int) ≤ ((indexed 2).rd 1 0).toInt ∧ ((indexed 0xFFFFFFFF).rd 1 0).toInt < 0
    -- a table that ends one parcel past the region
    ∧ ¬ (7677 + 2 + 2 * 1 ≤ ((onCore aCore (indexed 0)).region 0 (indexed 0)).2) :=
  ⟨issues _ _ rfl, usable _ _ (by decide), by decide, by decide, by decide, by decide, by decide, by decide, by decide⟩

theorem noShadow (s : State) (base n : Nat) (h : s.shadows = []) : NoShadow s base n := by intro k a _ _; rw [h]; rfl

/-- A group whose split has `n` entries on its return stack. -/
def deep (n : Nat) : Group := { g0 with slots := [(0, split 16 0xFFFFFFFF n 0)], frames := [(0, (List.range n).map fun i => (i, 40 + BitVec.ofNat 32 i))] }

theorem witness_CallsAndReturns : Issues (onCore {} (deep 15)) (issuer (deep 15)) ∧ (deep 15).sup = false ∧ (issuer (deep 15)).sp.depth < 16
    ∧ Issues (onCore {} (deep 16)) (issuer (deep 16)) ∧ 16 ≤ (issuer (deep 16)).sp.depth ∧ (deep 2).stack 0 2 = [40] ++ [41]
    ∧ (issuer (deep 0)).sp.depth = 0 ∧ Issues (onCore {} { deep 1 with sup := true }) (issuer { deep 1 with sup := true })
    ∧ 0 < (issuer { deep 1 with sup := true }).sp.depth
    ∧ NoShadow (onCore {} { deep 1 with sup := true }) (frameOf (onCore {} { deep 1 with sup := true }) (issuer { deep 1 with sup := true }) + 0x440 + 4 * 1) 4 :=
  ⟨issues _ _ rfl, rfl, by decide, issues _ _ rfl, by decide, by decide, by decide, issues _ _ rfl, by decide, noShadow _ _ _ rfl⟩
theorem witness_LoopCounts : Issues (onCore {} { g0 with sregs := [(31, 2)] }) (issuer { g0 with sregs := [(31, 2)] })
    ∧ Usable { g0 with sregs := [(31, 2)] } [(96 + (31 : BitVec 5).toNat, 1)] ∧ ({ g0 with sregs := [(31, 2)] } : Group).sget 31 ≠ 0 ∧ g0.sget 31 = 0 :=
  ⟨issues _ _ rfl, usable _ _ (by decide), by decide, by decide⟩
theorem witness_ExitAndParking : Issues (onCore {} g0) (issuer g0) ∧ g0.sup = false ∧ g0.spill = [] ∧ (∀ p ∈ g0.slots, p.1 = 0)
    ∧ ((0 : BitVec 2) = 0 → ∀ id, (issuer g0).sp.lastAtom = some id → (onCore {} g0).ops.look id = none) :=
  ⟨issues _ _ rfl, rfl, rfl, by decide, fun _ id h => by cases h⟩
theorem witness_OperandCauses : Issues (onCore {} { g0 with pend := [5], nregs := 8 }) (issuer { g0 with pend := [5], nregs := 8 })
    ∧ (5 : BitVec 7).toNat ∈ ({ g0 with pend := [5], nregs := 8 } : Group).pend ∧ (8 : BitVec 7).toNat ∉ ({ g0 with pend := [5], nregs := 8 } : Group).pend
    ∧ ∃ r ∈ [(8 : BitVec 7), 1, 2], r.toNat < 96 ∧ ({ g0 with pend := [5], nregs := 8 } : Group).nregs ≤ r.toNat :=
  ⟨issues _ _ rfl, by decide, by decide, by decide⟩
theorem witness_TrapEntry : Issues (onCore {} g0) (issuer g0) ∧ g0.sup = false ∧ g0.pend = []
    ∧ Issues (onCore {} { g0 with pend := [95] }) (issuer { g0 with pend := [95] }) ∧ ({ g0 with pend := [95] } : Group).pend ≠ []
    ∧ NoShadow (onCore {} g0) (frameOf (onCore {} g0) (issuer g0)) 0x440 :=
  ⟨issues _ _ rfl, rfl, rfl, issues _ _ rfl, by decide, noShadow _ _ _ rfl⟩
theorem witness_LeavingAHandler : Issues (onCore {} { gSup with trapsplit := 0x000200120000000F, entryMask := 0xF }) (issuer { gSup with trapsplit := 0x000200120000000F, entryMask := 0xF })
    ∧ gSup.sup = true ∧ (0x000200120000000F : Dword).extractLsb' 0 32 &&& (0xF : Mask) ≠ 0 ∧ Issues (onCore {} g0) (issuer g0) ∧ g0.sup = false :=
  ⟨issues _ _ rfl, rfl, by decide, issues _ _ rfl, rfl⟩

set_option maxRecDepth 20000 in
/-- The trap frame at 0xA00 of a context without a quota record: the trap answers, and the handler's split issues next. -/
theorem witness_TrapRoundTrip : Issues (onCore {} g0) (issuer g0) ∧ g0.sup = false ∧ g0.pend = [] ∧ (issuer g0).sp.mask ≠ 0
    ∧ ((onCore {} g0).ctx 0).quota + 0x68 ≤ frameOf (onCore {} g0) (issuer g0) ∧ NoShadow (onCore {} g0) (frameOf (onCore {} g0) (issuer g0)) 0x440
    ∧ ∃ t J, exec (.trap false 5) (onCore {} g0) = .next t ∧ Issues { t with cur := some (.split 0 0 J.k) } J ∧ J.c = 0 ∧ J.g = 0 ∧ J.k = J.gr.handlerSlot :=
  ⟨issues _ _ rfl, rfl, rfl, by decide, by decide, noShadow _ _ _ rfl, _, ⟨0, 0, 0, _, _⟩, rfl, ⟨rfl, rfl⟩, rfl, rfl, rfl⟩

theorem witness_GetsReads : Issues (onCore aCore g0) (issuer g0) ∧ Usable g0 [((95 : BitVec 7).toNat, 1)] ∧ Usable g0 [((94 : BitVec 7).toNat, 2)]
    ∧ ((0x0E : BitVec 6).toNat, g0.pfdrop) ∈ selectors (onCore aCore g0) (issuer g0) 31 ∧ (onCore aCore g0).wgOf 0 0 = some aWg ∧ g0.sup = false
    ∧ Issues (onCore aCore gSup) (issuer gSup) ∧ gSup.sup = true
    ∧ noSelector (0x05 : BitVec 6).toNat ∧ noSelector (0x07 : BitVec 6).toNat ∧ noSelector (0x0F : BitVec 6).toNat ∧ noSelector (0x14 : BitVec 6).toNat
    ∧ ¬ noSelector (0x13 : BitVec 6).toNat ∧ ¬ noSelector (0x08 : BitVec 6).toNat :=
  ⟨issues _ _ rfl, usable _ _ (by decide), usable _ _ (by decide), by decide, rfl, rfl, issues _ _ rfl, rfl, .inl (by decide), .inl (by decide), .inr (.inl (by decide)),
    .inr (.inr (by decide)), by unfold noSelector; decide, by unfold noSelector; decide⟩
theorem witness_SetsWrites : Issues (onCore {} g0) (issuer g0) ∧ Usable g0 [((127 : BitVec 7).toNat, 1)] ∧ g0.sup = false ∧ Issues (onCore {} gSup) (issuer gSup)
    ∧ Usable gSup [((95 : BitVec 7).toNat, 1)] ∧ Usable gSup [((126 : BitVec 7).toNat, 2)] ∧ gSup.sup = true ∧ (0x04 : BitVec 6).toNat ≤ 0x04
    ∧ (0x09 ≤ (0x0E : BitVec 6).toNat ∧ (0x0E : BitVec 6).toNat ≤ 0x0E) ∧ noSelector (0x3F : BitVec 6).toNat :=
  ⟨issues _ _ rfl, usable _ _ (by decide), rfl, issues _ _ rfl, usable _ _ (by decide), usable _ _ (by decide), rfl, by decide, by decide, .inr (.inr (by decide))⟩
theorem witness_HaltAndDoubleTrap : Issues (onCore aCore gSup) (issuer gSup) ∧ gSup.sup = true ∧ (onCore aCore gSup).wgOf 0 0 = some aWg
    ∧ (onCore aCore gSup).wgOf 0 0 = some aWg ∧ aWg.gang = aWg.gang ∧ aWg.ctx = gSup.ctx ∧ Issues (onCore aCore g0) (issuer g0) ∧ g0.sup = false
    ∧ ((onCore aCore gSup).regs.erTail - (onCore aCore gSup).regs.erHead).toNat < 2 ^ (onCore aCore gSup).regs.erSize
    ∧ (onCore aCore gSup).regs.erSize ≤ 14 ∧ (∀ c, ∀ p ∈ ((onCore aCore gSup).core c).groups, p.2.report = []) ∧ (∀ im ∈ (onCore aCore gSup).images, ∀ p ∈ im.groups, p.2.report = []) := by
  refine ⟨issues _ _ rfl, rfl, rfl, rfl, rfl, rfl, issues _ _ rfl, rfl, by decide, by decide, ?_, by decide⟩
  intro c p hp
  by_cases h : c = 0
  · subst h; revert p; decide
  · have : (onCore aCore gSup).core c = {} := by simp [onCore, State.core, SMap.get, SMap.look, Ne.symm h]
    rw [this] at hp; cases hp

/-- The module with a sequencer of core 0 as the issuer. -/
def onSeq (k : Core) (cp : Bool) : State where
  __ := State.reset
  cores := [(0, k)]
  cur := some (.seq 0 cp)

theorem witness_SequencerPrograms : encode (.addI32 false 2 1 3) ≠ none ∧ inEngineProgram (.addI32 false 2 1 3) = false
    ∧ (onSeq { cseq := { run := .running } } true).cur = some (.seq 0 true) ∧ (((onSeq { cseq := { run := .running } } true).core 0).seqOf true).run = .running ∧ 96 ≤ (111 : BitVec 7).toNat ∧ (111 : BitVec 7).toNat < 112 ∧ (15 : BitVec 5).toNat < 16
    ∧ 16 ≤ (16 : BitVec 5).toNat := by decide

/-! Memory -/

/-- A group of two lanes, whose pair v2 holds addresses 16 bytes apart, and whose v5 and v7 hold a value. -/
def gMem (lo hi : Word) (x : Word := 0) : Group :=
  { aGroup [(2, [(0, lo), (1, lo + 16)]), (3, [(0, hi), (1, hi)]), (5, [(0, x), (1, x)]), (7, [(0, x), (1, x)])] [] 3 with sregs := [(2, lo), (3, hi)] }
/-- The core with page 1 of context 0 in its lookaside buffer: valid, readable, writable, dirty. -/
def mCore (leaf : Dword := 0x2F) : Core := { aCore with tlb := [⟨0, 1, 3, leaf⟩] }

set_option maxRecDepth 20000 in
theorem witness_LoadsIssue_local : Issues (onCore aCore (gMem 65504 0xF0000000)) (issuer (gMem 65504 0xF0000000)) ∧ (issuer (gMem 65504 0xF0000000)).sp.acq = []
    ∧ Usable (gMem 65504 0xF0000000) [((4 : BitVec 7).toNat, sizeRegs 4), (a6 1, 2)]
    ∧ Clear ((issuer (gMem 65504 0xF0000000)).refs (onCore aCore (gMem 65504 0xF0000000)) (a6 1) (lanes 3) (2 ^ (4 : BitVec 3).toNat) reading) :=
  ⟨issues _ _ rfl, rfl, usable _ _ (by decide), by unfold Clear; decide⟩
set_option maxRecDepth 20000 in
theorem witness_LoadsIssue_global : Issues (onCore (mCore) (gMem 0x1FFE0 0)) (issuer (gMem 0x1FFE0 0))
    ∧ Usable (gMem 0x1FFE0 0) [((92 : BitVec 7).toNat, sizeRegs 4), (a6 1, 2)]
    ∧ Clear ((issuer (gMem 0x1FFE0 0)).refs (onCore (mCore) (gMem 0x1FFE0 0)) (a6 1) (lanes 3) (2 ^ (4 : BitVec 3).toNat) reading)
    -- an s register: the lowest lane alone
    ∧ Usable (gMem 0x1FFF8 0) [((126 : BitVec 7).toNat, sizeRegs 3), (a6 1, 2)]
    ∧ Clear ((issuer (gMem 0x1FFF8 0)).refs (onCore (mCore) (gMem 0x1FFF8 0)) (a6 1) [lowest 3] (2 ^ (3 : BitVec 3).toNat) reading)
    -- LDX, 32-bit float elements (format 6), and the pair format 12
    ∧ Clear (ldxRefs (onCore (mCore 0x3002F) (gMem 0x1FFE0 0)) (issuer (gMem 0x1FFE0 0)) 2 1 4)
    ∧ Clear (ldxRefs (onCore (mCore 0x6002F) (gMem 0x1FFE0 0)) (issuer (gMem 0x1FFE0 0)) 3 1 4)
    -- a block of 4-bit elements with its scales (geometry 1, format 11), at the index 511
    ∧ Clear (ldxRefs (onCore (mCore 0xD802F) (gMem 0x10000 0 511)) (issuer (gMem 0x10000 0 511)) 2 1 5)
    -- PREF of stack and local addresses
    ∧ ∀ L ∈ lanes 3, 14 ≤ ((gMem 0 0xE0000000).rd64 (a6 1) L).toNat / 2 ^ 60 :=
  ⟨issues _ _ rfl, usable _ _ (by decide), by unfold Clear; decide, usable _ _ (by decide), by unfold Clear; decide, by unfold Clear; decide, by unfold Clear; decide,
    by unfold Clear; decide, by decide⟩
set_option maxRecDepth 20000 in
/-- PREF with room for its walks, and with every walker busy and the queue full. -/
theorem witness_LoadsIssue_pref : (onCore aCore (gMem 0x1FFE0 0)).walkRoom (dieOf 0) 0 ((issuer (gMem 0x1FFE0 0)).prefWalks (onCore aCore (gMem 0x1FFE0 0)) [0x1FFE0, 0x1FFF0]) = true
    ∧ ∃ k : Die, State.walkRoom { onCore aCore (gMem 0x1FFE0 0) with dies := [(0, k)] } (dieOf 0) 0
        ((issuer (gMem 0x1FFE0 0)).prefWalks { onCore aCore (gMem 0x1FFE0 0) with dies := [(0, k)] } [0x1FFE0, 0x1FFF0]) = false :=
  ⟨by decide, { walks := (List.range 64).map fun i => (i, ⟨i, 1, i, none, true, []⟩), walkQueue := (List.range 256).map fun i => ⟨64 + i, 1, 64 + i, none, true, []⟩ }, by decide⟩

set_option maxRecDepth 20000 in
theorem witness_StoresIssue : Issues (onCore (mCore) (gMem 0x1FFE0 0)) (issuer (gMem 0x1FFE0 0)) ∧ (issuer (gMem 0x1FFE0 0)).sp.acq = []
    ∧ Usable (gMem 0x1FFE0 0) [((4 : BitVec 7).toNat, sizeRegs 4), (a6 1, 2)]
    ∧ Clear ((issuer (gMem 0x1FFE0 0)).refs (onCore (mCore) (gMem 0x1FFE0 0)) (a6 1) (lanes 3) (2 ^ (4 : BitVec 3).toNat) writing)
    ∧ (onCore (mCore) (gMem 0x1FFE0 0)).stageFull ((issuer (gMem 0x1FFE0 0)).refs (onCore (mCore) (gMem 0x1FFE0 0)) (a6 1) (lanes 3) 16 writing) = false
    ∧ (onCore (mCore) (gMem 0x1FFE0 0)).shadows = []
    ∧ Dirtied (onCore (mCore) (gMem 0x1FFE0 0)) (issuer (gMem 0x1FFE0 0)) ((issuer (gMem 0x1FFE0 0)).refs (onCore (mCore) (gMem 0x1FFE0 0)) (a6 1) (lanes 3) 16 writing)
    ∧ NothingEarlier (onCore (mCore) (gMem 0x1FFE0 0)) 1
    -- the local store, at the end of the partition; its home is the core
    ∧ Clear ((issuer (gMem 65504 0xF0000000)).refs (onCore aCore (gMem 65504 0xF0000000)) (a6 1) (lanes 3) (2 ^ (4 : BitVec 3).toNat) writing)
    ∧ (∀ r ∈ (issuer (gMem 65504 0xF0000000)).refs (onCore aCore (gMem 65504 0xF0000000)) (a6 1) (lanes 3) 16 writing, ∀ k, r.res.space = .loc k →
        ∀ b ∈ r.res.pas, (onCore aCore (gMem 65504 0xF0000000)).lsHome k 0 b = none) := by
  refine ⟨issues _ _ rfl, rfl, usable _ _ (by decide), by unfold Clear; decide, by decide, rfl, ?_, ?_, by unfold Clear; decide, ?_⟩
  · intro r hr p hp e he _
    rcases he with he | he
    · have : e = ⟨0, 1, 3, 0x2F⟩ := List.mem_singleton.mp he
      subst this; decide
    · simp [onCore, State.die, State.reset] at he; cases he
  · exact ⟨by simp [onCore, State.reset], by simp [onCore, State.reset]⟩
  · intro r hr k hk
    have h := List.all_eq_true.mp (show (((issuer (gMem 65504 0xF0000000)).refs (onCore aCore (gMem 65504 0xF0000000)) (a6 1) (lanes 3) 16 writing).all
      fun r => decide (r.res.space = .loc 0) && r.res.pas.all fun b => decide ((onCore aCore (gMem 65504 0xF0000000)).lsHome 0 0 b = none)) = true by decide) r hr
    simp only [Bool.and_eq_true, decide_eq_true_eq, List.all_eq_true] at h
    have : k = 0 := by have := hk.symm.trans h.1; injection this
    subst this; exact h.2

set_option maxRecDepth 20000 in
theorem witness_AtomicsIssue : Issues (onCore (mCore 0x3802F) (gMem 0x1FFE0 0)) (issuer (gMem 0x1FFE0 0)) ∧ (issuer (gMem 0x1FFE0 0)).sp.acq = []
    -- one register, a pair, a quad of operands
    ∧ Usable (gMem 0x1FFE0 0) [((5 : BitVec 7).toNat, 1), (a6 1, 2), ((7 : BitVec 7).toNat, 1)]
    ∧ Usable (gMem 0x1FFE0 0) [((94 : BitVec 7).toNat, 2), (a6 1, 2), ((92 : BitVec 7).toNat, 4)]
    ∧ Clear ((issuer (gMem 0x1FFE0 0)).refs (onCore (mCore 0x3802F) (gMem 0x1FFE0 0)) (a6 1) (lanes 3) 4 (atomically 4))
    ∧ Clear ((issuer (gMem 0x1FFE0 0)).refs (onCore (mCore 0x3802F) (gMem 0x1FFE0 0)) (a6 1) (lanes 3) 8 (atomically 3))
    -- a page of BF16 elements, for the reductions through a shadow
    ∧ (∀ r ∈ (issuer (gMem 0x1FFE0 0)).refs (onCore (mCore 0x3802F) (gMem 0x1FFE0 0)) (a6 1) (lanes 3) 4 (atomically 4), shadowFits (some [7]) r)
    ∧ Dirtied (onCore (mCore 0x3802F) (gMem 0x1FFE0 0)) (issuer (gMem 0x1FFE0 0))
        ((issuer (gMem 0x1FFE0 0)).refs (onCore (mCore 0x3802F) (gMem 0x1FFE0 0)) (a6 1) (lanes 3) 4 (atomically 4)) := by
  refine ⟨issues _ _ rfl, rfl, usable _ _ (by decide), usable _ _ (by decide), by unfold Clear; decide, by unfold Clear; decide, ?_, ?_⟩
  · intro r hr l hl
    injection hl with hl; subst hl
    have h := List.all_eq_true.mp (show (((issuer (gMem 0x1FFE0 0)).refs (onCore (mCore 0x3802F) (gMem 0x1FFE0 0)) (a6 1) (lanes 3) 4 (atomically 4)).all
      fun r => decide (r.res.space = .global) && decide (leafFmt r.res.attr.toNat = 7) && decide (leafGeom r.res.attr.toNat = 0)) = true by decide) r hr
    simp only [Bool.and_eq_true, decide_eq_true_eq] at h
    rw [h.1.1, h.1.2, h.2]; simp
  · intro r hr p hp e he _
    rcases he with he | he
    · have : e = ⟨0, 1, 3, 0x3802F⟩ := List.mem_singleton.mp he
      subst this; decide
    · simp [onCore, State.die, State.reset] at he; cases he

/-- An operation of the group of `onCore`, with accesses to bytes of the core's local store. -/
def anOp (kind : OpKind) (d : BitVec 7) (nd : Nat) (mask : Mask) (ls : List LaneAcc) : Op where
  op := 0
  uid := 1
  core := 0
  ctx := 0
  kind := kind
  scope := .workgroup
  d := d
  nd := nd
  mask := mask
  lanes := ls
  hint := 0
  acked := false
  sup := false
  clk := 0
/-- A lane's access to `n` bytes of the local store at an offset. -/
def locAt (L off n : Nat) (arg : List Word) : LaneAcc := ⟨L, 0, .loc 0, fromN off n, 0, arg, none⟩
def withOp (o : Op) (k : Core := aCore) (g : Group := g0) : State := { onCore k g with ops := [(0, o)], serial := 1 }

/-- FENCE after an atomic that is outstanding. -/
def gAtom : Group := { g0 with slots := [(0, { split 16 0xFFFFFFFF 0 0 with lastAtom := some 0 })] }
def atomBefore : Op := anOp (.atomic .addI32 true false) 3 1 1 [locAt 0 0 4 [1]]
theorem witness_ExitAndParking_atomic : Issues (withOp atomBefore aCore gAtom) (issuer gAtom) ∧ (issuer gAtom).sp.lastAtom = some 0
    ∧ (withOp atomBefore aCore gAtom).ops.look 0 = some atomBefore ∧ atomBefore.kind = .atomic .addI32 true false := ⟨⟨rfl, rfl⟩, rfl, rfl, rfl⟩

theorem outstanding (o : Op) (h : o.op = 0 ∧ o.uid = 1) (hl : ∀ l ∈ o.lanes, l.val = none) (hn : (o.lanes.map fun l => l.lane).Nodup)
    (hd : o.d.toNat + o.nd ≤ 128 ∧ 0 < o.nd ∧ (o.d.toNat < 96 → o.d.toNat + o.nd ≤ 96)) : Outstanding (withOp o) o 0 0 g0 := by
  refine ⟨by rw [h.1]; rfl, by rw [h.2]; rfl, ?_, rfl, rfl, rfl, rfl, rfl, hl, hn, hd⟩
  intro p hp q hq _
  simp only [withOp, onCore, List.mem_singleton] at hp
  subst hp
  simp only [List.mem_singleton] at hq
  subst hq
  exact ⟨rfl, rfl⟩

theorem witness_LoadResultsArrive : ∃ o : Op, o.kind = .load 1 true false ∧ Outstanding (withOp o) o 0 0 g0
    ∧ (∀ l ∈ o.lanes, Readable (withOp o) o l ∧ l.pas.length = 1 ∧ 0 < 1) ∧ (true = true → 1 ≤ 2 ∨ 4 ≤ 1) ∧ o.nd = (1 + 3) / 4 :=
  ⟨anOp (.load 1 true false) 127 1 3 [locAt 0 65535 1 [], locAt 1 0 1 []], rfl,
    outstanding _ ⟨rfl, rfl⟩ (by decide) (by decide) (by decide),
    by intro l hl; refine ⟨⟨?_, .inl ⟨0, ?_⟩⟩, ?_⟩ <;> (revert l; decide), by decide, by decide⟩
/-- Sixteen bytes into v92 to v95. -/
theorem witness_LoadResultsArrive_quad : ∃ o : Op, o.kind = .load 16 false false ∧ Outstanding (withOp o) o 0 0 g0
    ∧ (∀ l ∈ o.lanes, Readable (withOp o) o l ∧ l.pas.length = 16 ∧ 0 < 16) ∧ o.nd = (16 + 3) / 4 :=
  ⟨anOp (.load 16 false false) 92 4 1 [locAt 0 65520 16 []], rfl, outstanding _ ⟨rfl, rfl⟩ (by decide) (by decide) (by decide),
    by intro l hl; refine ⟨⟨?_, .inl ⟨0, ?_⟩⟩, ?_⟩ <;> (revert l; decide), by decide⟩

theorem witness_LocalAtomicsPerform (returns : Bool) : ∃ o l, o.kind = .atomic .casI64 returns false ∧ Outstanding (withOp o) o 0 0 g0 ∧ o.lanes = [l]
    ∧ l.space = .loc 0 ∧ l.pas = fromN 131064 AtomOp.casI64.bytes ∧ o.nd = AtomOp.casI64.bytes / 4 ∧ (withOp o).heldBack o l = false ∧ o.scope = .workgroup
    ∧ ∀ b ∈ l.pas, (withOp o).lsHome 0 o.ctx b = none := by
  refine ⟨anOp (.atomic .casI64 returns false) 94 2 1 [locAt 0 131064 8 [0, 0, 5, 6]], _, rfl, outstanding _ ⟨rfl, rfl⟩ ?_ ?_ ?_, rfl, rfl, rfl, rfl, ?_, rfl, ?_⟩
  · intro l h; cases List.mem_singleton.mp h; rfl
  all_goals cases returns <;> decide

/-! Translation, barriers, elastic groups, queues -/

theorem witness_TranslationInstructions : Issues (onCore aCore gSup) (issuer gSup) ∧ gSup.sup = true ∧ Issues (onCore aCore g0) (issuer g0) ∧ g0.sup = false
    ∧ (∀ g ∈ [gSup, g0], Usable g [((95 : BitVec 7).toNat, 1), (a6 0x3F, 2), ((127 : BitVec 7).toNat, 1)] ∧ Usable g [(a6 47, 2)]) :=
  ⟨issues _ _ rfl, rfl, issues _ _ rfl, rfl, by
    intro g hg
    simp only [List.mem_cons, List.not_mem_nil, or_false] at hg
    rcases hg with rfl | rfl <;> exact ⟨usable _ _ (by decide), usable _ _ (by decide)⟩⟩

/-- Words 0 and 3 are uninitialised, word 1 expects one participant, word 2 two, of which one has come. -/
theorem witness_BarrierInstructions : Issues (onCore aCore g0) (issuer g0) ∧ (onCore aCore g0).wgOf 0 0 = some aWg ∧ Usable g0 [((95 : BitVec 7).toNat, 1)] ∧ g0.sup = false
    ∧ (1 < aWg.bars ∧ expected (barIn (onCore aCore g0) 0 aWg 1) = 1 ∧ awaited (barIn (onCore aCore g0) 0 aWg 1) = 1)
    ∧ (2 < aWg.bars ∧ 1 < expected (barIn (onCore aCore g0) 0 aWg 2) ∧ awaited (barIn (onCore aCore g0) 0 aWg 2) ≠ expected (barIn (onCore aCore g0) 0 aWg 2))
    ∧ (3 < aWg.bars ∧ expected (barIn (onCore aCore g0) 0 aWg 3) = 0 ∧ awaited (barIn (onCore aCore g0) 0 aWg 3) = 0) ∧ aWg.bars ≤ (4 : BitVec 7).toNat
    -- BAR.WAIT on the running phase 0 and on another
    ∧ phaseOf (barIn (onCore aCore g0) 0 aWg 1) = (g0.rd 95 0).setWidth 16
    ∧ phaseOf (barIn (onCore aCore (indexed 5)) 0 aWg 1) ≠ ((indexed 5).rd 1 (lowest (issuer (indexed 5)).sp.mask)).setWidth 16
    ∧ Issues (onCore aCore (indexed 5)) (issuer (indexed 5)) :=
  ⟨issues _ _ rfl, rfl, usable _ _ (by decide), rfl, by decide, by decide, by decide, by decide, by decide, by decide, issues _ _ rfl⟩
theorem witness_BarrierInstructions_sequencer : (onSeq { aCore with mseq := { wg := 0 } } false).cur = some (.seq 0 false)
    ∧ (onSeq { aCore with mseq := { wg := 0 } } false).wgOf 0 (((onSeq { aCore with mseq := { wg := 0 } } false).core 0).seqOf false).wg = some aWg
    ∧ 96 ≤ (111 : BitVec 7).toNat ∧ (111 : BitVec 7).toNat < 112 ∧ expected (barIn (onSeq aCore false) 0 aWg 1) ≠ 0 := ⟨rfl, rfl, by decide, by decide, by decide⟩

/-- The quota record of context 0 at 0x800, page tables that map context 0's virtual addresses below 2^34 to the same device addresses, readable and writable; at 0x10040 a queue of three
slots, of which slot 0 is free, slot 1 reserved and slot 2 taken by holder 0. -/
def qMem : SMap Byte := [(0x800, 1), (0x803, 1), (0x85E, 48), (0x1000, 1), (0x1003, 2), (0x2000, 0x3F), (0x10048, 0x80), (0x1004A, 1), (0x10050, 3), (0x10054, 6), (0x10058, 1),
  (0x10070, 0x80), (0x10088, 1), (0x10090, 3)]
/-- A core whose lookaside buffer holds page 1 of that mapping. -/
def qCore : Core := { aCore with tlb := [⟨0, 1, 3, 0x1000002F⟩] }
def qState (g : Group) : State := { onCore qCore g with mem := qMem, tags := [(0, 320)], ctxs := [(0, { live := true, quota := 0x800, stackn := 8 })] }
def gQ : Group := gMem 0x10040 0

theorem qIssues : Issues (qState gQ) (issuer gQ) := ⟨rfl, rfl⟩

set_option maxRecDepth 50000 in
theorem queue_fits : QueueFits (qState gQ) (issuer gQ) 1 :=
  ⟨by unfold Clear; decide, by decide, by decide, by decide, by decide, by decide⟩

set_option maxRecDepth 50000 in
theorem witness_ElasticAndQueueInstructions_queue : (issuer gQ).sp.acq = [] ∧ Usable gQ [(a6 1, 2)] ∧ Usable gQ [((94 : BitVec 7).toNat, 2)] ∧ Usable gQ [((127 : BitVec 7).toNat, 1)]
    ∧ queuePa (qState gQ) (issuer gQ) 1 = 0x10040
    ∧ (SMap.get ({} : Queue) (queueState (qState gQ) (issuer gQ) 1).queues 0x10040).pushers = []
    ∧ ((queueState (qState gQ) (issuer gQ) 1).pushSlot 0x10040 gQ.ident).map Prod.fst = some 0
    ∧ (queueState (qState gQ) (issuer gQ) 1).queueOps [gQ.uid] (.qpop 0x10040)
        < ((queueState (qState gQ) (issuer gQ) 1).slotsHeld ((queueState (qState gQ) (issuer gQ) 1).qdesc 0x10040) 1 gQ.ident).length
    ∧ (queueState (qState gQ) (issuer gQ) 1).wgOf 0 0 = some aWg
    ∧ (queueState (qState gQ) (issuer gQ) 1).queueOps ((((queueState (qState gQ) (issuer gQ) 1).core 0).groupsOf 0).map fun p => p.2.uid) (.qfree 0x10040)
        < ((queueState (qState gQ) (issuer gQ) 1).slotsHeld ((queueState (qState gQ) (issuer gQ) 1).qdesc 0x10040) 3 aWg.ident).length :=
  ⟨rfl, usable _ _ (by decide), usable _ _ (by decide), usable _ _ (by decide), by decide, by decide, by decide, by decide, rfl, by decide⟩

/-- QPUSH behind a group that waits. -/
theorem witness_ElasticAndQueueInstructions_wait : ∃ s : State, Issues s (issuer gQ) ∧ (SMap.get ({} : Queue) s.queues 0x10040).pushers ≠ [] :=
  ⟨{ qState gQ with queues := [(0x10040, { pushers := [(7, 0)] })] }, ⟨rfl, rfl⟩, by decide⟩
set_option maxRecDepth 50000 in
/-- QPUSH where no slot is free, by the descriptor's count and by the slots' words. -/
theorem witness_ElasticAndQueueInstructions_full :
    (QueueFits { qState gQ with mem := qMem.erase 0x10058 } (issuer gQ) 1 ∧ ((queueState { qState gQ with mem := qMem.erase 0x10058 } (issuer gQ) 1).qdesc 0x10040).free = 0)
    ∧ QueueFits { qState gQ with mem := SMap.put qMem 0x10080 2 } (issuer gQ) 1
    ∧ (queueState { qState gQ with mem := SMap.put qMem 0x10080 2 } (issuer gQ) 1).freeSlotOf
        ((queueState { qState gQ with mem := SMap.put qMem 0x10080 2 } (issuer gQ) 1).qdesc 0x10040) = none :=
  ⟨⟨⟨by unfold Clear; decide, by decide, by decide, by decide, by decide, by decide⟩, by decide⟩,
    ⟨by unfold Clear; decide, by decide, by decide, by decide, by decide, by decide⟩, by decide⟩

set_option maxRecDepth 20000 in
theorem witness_ElasticAndQueueInstructions_elastic : Issues (qState (indexed 63)) (issuer (indexed 63)) ∧ Usable (indexed 63) [((95 : BitVec 7).toNat, 1), ((1 : BitVec 7).toNat, 1)]
    ∧ (qState (indexed 63)).wgOf 0 0 = some aWg ∧ aWg.emin < aWg.emax
    ∧ 0 < min (((indexed 63).rd (1 : BitVec 7).toNat (lowest (issuer (indexed 63)).sp.mask)).toNat % 64) ((qState (indexed 63)).attachFree 0 0)
    ∧ min (((indexed 64).rd (1 : BitVec 7).toNat (lowest (issuer (indexed 64)).sp.mask)).toNat % 64) ((qState (indexed 64)).attachFree 0 0) = 0
    ∧ (indexed 63).sup = false ∧ ({ aWg with emax := 1 } : Workgroup).emax ≤ ({ aWg with emax := 1 } : Workgroup).emin
    -- DETACH above the least size, at it, and with a result pending
    ∧ ({ aWg with emin := 0 } : Workgroup).emin < (onCore { aCore with wgs := [(0, { aWg with emin := 0 })] } g0).wgSize 0 0 ∧ g0.pend = []
    ∧ (onCore aCore g0).wgSize 0 0 ≤ aWg.emin ∧ ({ g0 with pend := [3] } : Group).pend ≠ []
    ∧ (onCore { aCore with wgs := [(0, { aWg with emin := 0 })] } g0).wgOf 0 0 = some { aWg with emin := 0 } :=
  ⟨⟨rfl, rfl⟩, usable _ _ (by decide), rfl, by decide, by decide, by decide, rfl, by decide, by decide, rfl, by decide, by decide, rfl⟩

theorem witness_ElasticAndQueueInstructions_publish : ∃ s : State, Issues s (issuer gQ)
    ∧ s.windowAt gQ.ctx (gQ.rd64 (a6 1) (lowest (issuer gQ).sp.mask)).toNat = some 2 ∧ (qState gQ).windowAt gQ.ctx (gQ.rd64 (a6 1) 0).toNat = none :=
  ⟨{ qState gQ with windows := [(2, { base := 0x10000, len := 1, en := true })] }, ⟨rfl, rfl⟩, by decide, by decide⟩

/-! Engines -/

/-- A READY tile, of a format and geometry, as large as `size` times 256 bytes. -/
def aTile (f : BitVec 4) (geom : BitVec 3) (size : BitVec 14) : Tile := { state := .ready, valid := true, fmt := f, geom := geom, base := 8, size := size }
/-- The core with the workgroup's three entries: `x`, an EMPTY tile, and one that is not valid. -/
def tCore (x : Tile) : Core := { aCore with tiles := [(0, x), (1, { valid := true, size := 4 })] }
/-- A sequencer of that core. -/
def aSeq : Sequencer := { run := .running, owner := some 1, wg := 0, sregs := [(2, 0x10000)] }
def seqOn (k : Core) : State := onSeq { k with mseq := aSeq } false

theorem engine_group (k : Core) : EngIssues (onCore k g0) (.grp (issuer g0)) := ⟨issues _ _ rfl, rfl⟩
theorem engine_seq (k : Core) : EngIssues (seqOn k) (.seq 0 false aSeq) := ⟨rfl, rfl⟩

/-- R208: a format of 16 bits, whose tile has the smallest size, and one of 4 bits with its scales, permuted. -/
theorem witness_MatrixInstructions : EngIssues (onCore (tCore (aTile 7 0 8)) g0) (.grp (issuer g0)) ∧ EngUsable (.grp (issuer g0)) true []
    ∧ Eng.wgOf (.grp (issuer g0)) (onCore (tCore (aTile 7 0 8)) g0) = some aWg ∧ ((onCore (tCore (aTile 7 0 8)) g0).core 0).mqueue.length < 16
    ∧ (onCore (tCore (aTile 7 0 8)) g0).queueWaiters 0 true .matrixQueue = [] ∧ aWg.accs[(1 : BitVec 4).toNat]? = some 1 ∧ aWg.tiles[(0 : BitVec 6).toNat]? = some 0
    ∧ (∃ x, mmaFmt (0 : BitVec 4).toNat = some x ∧ (aTile 7 0 8).fmt.toNat = x.fmt ∧ (aTile 7 0 8).geom.toNat = x.geom ∧ x.bytes ≤ 256 * (aTile 7 0 8).size.toNat)
    ∧ (∃ x, mmaFmt (8 : BitVec 4).toNat = some x ∧ (aTile 11 2 10).fmt.toNat = x.fmt ∧ (aTile 11 2 10).geom.toNat = x.geom ∧ x.bytes ≤ 256 * (aTile 11 2 10).size.toNat
        ∧ x.geom ≠ 0 ∧ (aTile 11 2 10).perm = false)
    -- the conversions between tiles and accumulators, and the operands of the others
    ∧ (∃ F, maccFmt 6 = some F ∧ (aTile 6 0 16).fmt = 6 ∧ 1024 * (F.bits / 8) ≤ 256 * (aTile 6 0 16).size.toNat)
    ∧ EngUsable (.grp (issuer g0)) true [((127 : BitVec 7).toNat, 1)] ∧ (7 : BitVec 4).toNat < 8 ∧ EngUsable (.grp (issuer g0)) true [(a6 63, 2)] :=
  ⟨engine_group _, usable _ _ (by decide), rfl, by decide, by decide, by decide, by decide, ⟨_, rfl, by decide⟩, ⟨_, rfl, by decide⟩, ⟨_, rfl, by decide⟩,
    usable _ _ (by decide), by decide, usable _ _ (by decide)⟩
theorem witness_MatrixInstructions_sequencer : EngIssues (seqOn (tCore (aTile 7 0 8))) (.seq 0 false aSeq) ∧ EngUsable (.seq 0 false aSeq) false []
    ∧ Eng.wgOf (.seq 0 false aSeq) (seqOn (tCore (aTile 7 0 8))) = some aWg ∧ (seqOn (tCore (aTile 7 0 8))).queueWaiters 0 true .matrixQueue = []
    ∧ EngUsable (.seq 0 false aSeq) false [((111 : BitVec 7).toNat, 1)] ∧ EngUsable (.seq 0 false aSeq) false [(a6 55, 2)] :=
  ⟨engine_seq _, ⟨rfl, by decide⟩, rfl, by decide, ⟨rfl, by decide⟩, ⟨rfl, by decide⟩⟩
set_option maxRecDepth 20000 in
/-- V2ACC and ACC2V: FP32 in v88 to v95 with nothing queued, FP8 in v94 with an operation queued; MPERM at the last 128 bytes of a page. -/
theorem witness_MatrixInstructions_vector : ∃ F H, maccFmt 6 = some F ∧ maccFmt 9 = some H ∧ (88 : BitVec 7).toNat % maccRegs (6 : BitVec 4).toNat = 0
    ∧ (94 : BitVec 7).toNat % maccRegs (9 : BitVec 4).toNat = 0
    ∧ Usable g0 ((fromN (88 : BitVec 7).toNat (maccRegs (6 : BitVec 4).toNat)).map fun r => (r, 1))
    ∧ Usable g0 ((fromN (94 : BitVec 7).toNat (maccRegs (9 : BitVec 4).toNat)).map fun r => (r, 1))
    ∧ ((onCore aCore g0).core 0).mqueue = [] ∧ ((onCore { aCore with mqueue := [⟨0, .grp 1, 0, 0, 1, false, .mzero 0⟩] } g0).core 0).mqueue ≠ []
    ∧ Clear [Ref.mk 0 0x1FF80 ((onCore (mCore) (gMem 0x1FF80 0)).resolve 0 (gMem 0x1FF80 0) 0 0x1FF80 128 reading)]
    ∧ (gMem 0x1FF80 0).rd64 (a6 1) (lowest 3) = 0x1FF80 :=
  ⟨_, _, rfl, rfl, by decide, by decide, usable _ _ (by decide), usable _ _ (by decide), rfl, by decide, by unfold Clear; decide, by decide⟩

/-- MLDB of a stream at the end of the partition: a header with its unit 0 and unit 79 of format 5, and their 64 bytes. -/
def streamCore : Core := { aCore with ls := [(65456, 1), (65465, 0x80), (65466, 5)] }
def gStream : Group := gMem 0xFFB0 0xF0000000
set_option maxRecDepth 20000 in
theorem witness_MatrixInstructions_stream : EngIssues (onCore streamCore gStream) (.grp (issuer gStream)) ∧ EngUsable (.grp (issuer gStream)) true [(a6 1, 2)]
    ∧ Eng.wgOf (.grp (issuer gStream)) (onCore streamCore gStream) = some aWg ∧ (Eng.rd64 (.grp (issuer gStream)) (a6 1)).toNat = 0xF00000000000FFB0
    ∧ 0xF00000000000FFB0 / 2 ^ 60 = 15 ∧ 0xF00000000000FFB0 % 16 = 0 ∧ (onCore streamCore gStream).ops = [] ∧ (onCore streamCore gStream).badSram = []
    ∧ (onCore streamCore gStream).resolveLocal 0 0 0xF00000000000FFB0 1 = { kinds := [], pas := [65456], space := .loc 0 }
    ∧ ofBytes ((fromN 65456 16).map fun b => SMap.get 0 ((onCore streamCore gStream).core 0).ls b) = 1 + 2 ^ 79 + 5 * 2 ^ 80 ∧ headerBad (1 + 2 ^ 79 + 5 * 2 ^ 80) = false
    ∧ presentUnits (1 + 2 ^ 79 + 5 * 2 ^ 80) = [0, 79] ∧ (∀ b ∈ fromN 65456 80, (onCore streamCore gStream).lsHome 0 0 b = none)
    ∧ ((onCore streamCore gStream).resolveLocal 0 0 (0xF00000000000FFB0 + 15) 1).kinds = []
    ∧ ((onCore streamCore gStream).resolveLocal 0 0 (0xF00000000000FFB0 + 16 + 32 * 2 - 1) 1).kinds = []
    -- the stream is read, an address that is not aligned is not, and an atomic of the group on its first bytes holds it back
    ∧ (∃ bytes, ((onCore streamCore gStream).loadStream 0 0 0 (.grp 1) 0xF00000000000FFB0).1 = .ok bytes)
    ∧ (∃ k b, ((onCore streamCore gStream).loadStream 0 0 0 (.grp 1) 0xF00000000000FFB8).1 = .fail k b)
    ∧ ((withOp (anOp (.atomic .addI32 true false) 3 1 1 [locAt 0 65456 4 [1]]) streamCore gStream).loadStream 0 0 0 (.grp 1) 0xF00000000000FFB0).1 = .held :=
  ⟨⟨⟨rfl, rfl⟩, rfl⟩, usable _ _ (by decide), rfl, by decide, by decide, by decide, rfl, rfl, rfl, by decide, by decide, by decide, by decide, by decide, by decide,
    ⟨_, rfl⟩, ⟨_, _, rfl⟩, rfl⟩
/-- A stream on a poisoned sector of the page 1. -/
theorem witness_MatrixInstructions_poison : ∃ s : State, (s.loadStream 0 0 0 (.grp 1) 0x10000).1 = .poison ∧ s.wgOf 0 0 = some aWg ∧ aWg.ctx = 0 :=
  ⟨{ qState g0 with poisoned := [0x10000 / 64] }, rfl, rfl, rfl⟩

/-- TSETUP of the invalid entry 2 with a descriptor of 32 blocks at block 1; TDRAIN of a READY tile, read and not; TFREE of an idle and of a filling tile. -/
theorem witness_TileInstructions : EngIssues (onCore (tCore (aTile 7 0 8)) g0) (.grp (issuer g0)) ∧ aWg.tiles[(2 : BitVec 6).toNat]? = some 2
    ∧ EngUsable (.grp (issuer { g0 with sregs := [(2, 0x200001), (3, 0x107)] })) true [(a6 49, 2)]
    ∧ setupCause (Eng.rd64 (.grp (issuer { g0 with sregs := [(2, 0x200001), (3, 0x107)] })) (a6 49)) ((onCore (tCore (aTile 7 0 8)) g0).core 0 |>.tile 2).valid aWg = none
    ∧ ((tCore (aTile 7 0 8)).tile 0).state = .ready ∧ ((tCore (aTile 7 0 8)).tile 0).reads = [] ∧ ((tCore { aTile 7 0 8 with reads := [3] }).tile 0).reads ≠ []
    ∧ ((tCore (aTile 7 0 8)).tile 0).fills = 0 ∧ ((tCore (aTile 7 0 8)).tile 0).writes = [] ∧ ((tCore { aTile 7 0 8 with fills := 1 }).tile 0).fills ≠ 0
    -- TFREE behind none and behind another TFREE of the entry
    ∧ (tCore (aTile 7 0 8)).tfreeWaits 0 = false ∧ (Core.tfreeWaits { tCore (aTile 7 0 8) with mseq := { wait := .tfree 0 } } 0) = true
    ∧ Usable g0 [((94 : BitVec 7).toNat, 2)] ∧ g0.sup = false ∧ ((tCore (aTile 7 0 8)).tile 2).valid = false
    ∧ (((tCore (aTile 7 0 8)).tile 1).valid = true ∧ ((tCore (aTile 7 0 8)).tile 1).state ≠ .ready) ∧ aWg.tiles.length ≤ (3 : BitVec 6).toNat
    ∧ EngUsable (.seq 0 false aSeq) false [((110 : BitVec 7).toNat, 2)] :=
  ⟨engine_group _, by decide, usable _ _ (by decide), by decide, rfl, rfl, by decide, rfl, rfl, by decide, by decide, by decide, usable _ _ (by decide), rfl, rfl, by decide, by decide, ⟨rfl, by decide⟩⟩

theorem none_outstanding (k : Core) (g : Group) (h : k.mqueue = []) (hs : k.slots = []) : NoneOutstanding (onCore k g) (.grp (issuer g)) := by
  intro I hI
  refine ⟨by simp [onCore, State.reset], ?_, ?_⟩
  · intro p hp y hy
    simp only [onCore, List.mem_singleton] at hp; subst hp
    rw [h] at hy; cases hy
  · simp [State.images, onCore, State.reset, hs]

/-- BCOPY with its record in v88 to v95 (or, of a sequencer, in s8 to s15), of no tile, into the EMPTY tile 1 and from the READY tile 0. -/
theorem witness_CopyInstructions : EngIssues (onCore (tCore (aTile 7 0 8)) g0) (.grp (issuer g0)) ∧ NoneOutstanding (onCore (tCore (aTile 7 0 8)) g0) (.grp (issuer g0))
    ∧ EngUsable (.grp (issuer g0)) true [((88 : BitVec 7).toNat, 8), ((127 : BitVec 7).toNat, 1), (a6 40, 2)]
    ∧ EngUsable (.seq 0 false aSeq) false [((104 : BitVec 7).toNat, 8), ((96 : BitVec 7).toNat, 1), (a6 50, 2)]
    ∧ (∀ store, ((onCore (tCore (aTile 7 0 8)) g0).core 0).copyCount store < 16 ∧ (onCore (tCore (aTile 7 0 8)) g0).queueWaiters 0 false (.copyQueue store) = [])
    ∧ (∃ g : Group, (g.rd 98 0).toNat < 64 ∧ aWg.tiles[(g.rd 98 0).toNat]? = some 1 ∧ ((tCore (aTile 7 0 8)).tile 1).valid = true
        ∧ ((tCore (aTile 7 0 8)).tile 1).state = .empty)
    ∧ (g0.rd 98 0).toNat < 64 ∧ aWg.tiles[(g0.rd 98 0).toNat]? = some 0 ∧ ((tCore (aTile 7 0 8)).tile 0).state = .ready :=
  ⟨engine_group _, none_outstanding _ _ rfl rfl, usable _ _ (by decide), ⟨rfl, by decide⟩, by intro store; cases store <;> decide, ⟨{ g0 with sregs := [(2, 1)] }, by decide⟩, by decide, by decide, rfl⟩

/-- LCOPY from a page to the local store, with barrier word 1; batches sealed and not, with copies that run and are over. -/
def gLcopy : Group := { gMem 0x10000 0 with v := [(2, [(0, 0x10000), (1, 0x1FFF0)]), (4, [(1, 16)]), (5, [(0, 0xF0000000), (1, 0xF0000000)])], batches := [(7, ⟨true, [3]⟩)] }
set_option maxRecDepth 20000 in
theorem witness_CopyInstructions_lane : EngIssues (onCore (mCore) gLcopy) (.grp (issuer gLcopy)) ∧ EngUsable (.grp (issuer gLcopy)) true [((4 : BitVec 7).toNat, 2), (a6 1, 2)]
    ∧ Clear ((Eng.lcopyRefs (.grp (issuer gLcopy)) (onCore (mCore) gLcopy) 1 4).map Prod.snd) ∧ (1 : BitVec 7).toNat < aWg.bars
    ∧ expected (barIn (onCore (mCore) gLcopy) 0 aWg 1) ≠ 0
    ∧ ((batchOf gLcopy.batches 7).isSealed = true ∧ ∀ op ∈ (batchOf gLcopy.batches 7).ops, (onCore (mCore) gLcopy).copyOf op = none)
    ∧ (batchOf gLcopy.batches 0).isSealed = false ∧ gLcopy.sup = false :=
  ⟨⟨issues _ _ rfl, rfl⟩, usable _ _ (by decide), by unfold Clear; decide, by decide, by decide, by decide, by decide, rfl⟩

/-- LCOPY within the partition, from local addresses, of a group with nothing outstanding. -/
def gLocal : Group := { gMem 0x100 0xF0000000 with v := [(2, [(0, 0x100), (1, 0x110)]), (3, [(0, 0xF0000000), (1, 0xF0000000)]), (4, [(0, 0x200), (1, 0x210)]), (5, [(0, 0xF0000000), (1, 0xF0000000)])] }
set_option maxRecDepth 20000 in
theorem witness_CopyInstructions_local : EngIssues (onCore aCore gLocal) (.grp (issuer gLocal)) ∧ NoneOutstanding (onCore aCore gLocal) (.grp (issuer gLocal))
    ∧ Clear ((Eng.lcopyRefs (.grp (issuer gLocal)) (onCore aCore gLocal) 1 4).map Prod.snd) ∧ (onCore aCore gLocal).badSram = []
    ∧ lcopyLanes (Eng.lcopyRefs (.grp (issuer gLocal)) (onCore aCore gLocal) 1 4)
      = [(0, (fromN 0x100 16).map (.loc 0), (fromN 0x200 16).map (.loc 0)), (1, (fromN 0x110 16).map (.loc 0), (fromN 0x210 16).map (.loc 0))]
    ∧ ∀ b ∈ fromN 0x100 32, (onCore aCore gLocal).lsHome 0 0 b = none :=
  ⟨⟨⟨rfl, rfl⟩, rfl⟩, none_outstanding _ _ rfl rfl, by unfold Clear; decide, rfl, by decide, by decide⟩

/-- A copy of a group that its engine has accepted. -/
def aCopy : CopyOp where
  op := 3
  src := .grp 1
  core := 0
  ctx := 0
  wg := 0
  sup := false
  store := false
  lane := false
  d := 9
  mask := 1
  tile := none
  base := 0
  record := 0
  loc := 0
  origin := []
  void := false
  causes := []
  bytes := 0
  near := false
  cells := []
  need := []
  word := 0
  addrs := []
  accepted := 0
theorem witness_CopyInstructions_wait : ∃ k, EngIssues (onCore k gLcopy) (.grp (issuer gLcopy)) ∧ (batchOf gLcopy.batches 7).isSealed = true
    ∧ ∃ op ∈ (batchOf gLcopy.batches 7).ops, (onCore k gLcopy).copyOf op ≠ none :=
  ⟨{ aCore with loadQ := [aCopy] }, ⟨issues _ _ rfl, rfl⟩, rfl, 3, by decide, by decide⟩

/-- FORK of both sequencers, RDV of one that has ended and of one that runs, and COLL and DPOST with a READY tile and barrier word 1. -/
theorem witness_ForkAndCollectiveInstructions : Issues (onCore (tCore (aTile 7 0 8)) g0) (issuer g0) ∧ Usable g0 [((95 : BitVec 7).toNat, 1), ((127 : BitVec 7).toNat, 1)]
    ∧ (tCore (aTile 7 0 8)).mseq.run = .idle ∧ (tCore (aTile 7 0 8)).cseq.run = .idle
    ∧ (∃ k : Core, k.mseq.owner = some g0.uid ∧ k.mseq.run = .ended ∧ k.cseq.owner = none ∧ Issues (onCore k g0) (issuer g0))
    ∧ (∃ k : Core, k.cseq.owner = some g0.uid ∧ k.cseq.run = .running ∧ Issues (onCore k g0) (issuer g0))
    -- RDV of a stopped sequencer, the one of matrices and the one of copies
    ∧ (∃ k : Core, k.mseq.owner = some g0.uid ∧ k.mseq.run = .stopped ∧ (onCore k g0).seqBusy 0 false = false ∧ (onCore k g0).seqOver 0 true g0.uid = true
        ∧ Issues (onCore k g0) (issuer g0))
    ∧ (∃ k : Core, k.cseq.owner = some g0.uid ∧ k.cseq.run = .stopped ∧ (onCore k g0).seqBusy 0 true = false ∧ k.mseq.owner ≠ some g0.uid
        ∧ Issues (onCore k g0) (issuer g0))
    -- ENDSEQ
    ∧ ((onSeq { aCore with mseq := { run := .running } } false).cur = some (.seq 0 false) ∧ (((onSeq { aCore with mseq := { run := .running } } false).core 0).seqOf false).run = .running)
    ∧ (∃ k : Core, k.mseq.run ≠ .idle ∧ (indexed 1).rd 1 0 ≠ 0 ∧ Issues (onCore k (indexed 1)) (issuer (indexed 1)) ∧ Usable (indexed 1) [((1 : BitVec 7).toNat, 1), ((1 : BitVec 7).toNat, 1)])
    ∧ (issuer g0).sp.acq = [] ∧ Usable g0 [((127 : BitVec 7).toNat, 1), (a6 47, 2)] ∧ (onCore (tCore (aTile 7 0 8)) g0).wgOf 0 0 = some aWg
    ∧ (1 : BitVec 4).toNat < aWg.bars ∧ expected (barIn (onCore (tCore (aTile 7 0 8)) g0) 0 aWg 1) ≠ 0
    ∧ aWg.tiles[(0 : BitVec 6).toNat]? = some 0 ∧ ((onCore (tCore (aTile 7 0 8)) g0).core 0 |>.tile 0).valid = true :=
  ⟨issues _ _ rfl, usable _ _ (by decide), rfl, rfl, ⟨{ mseq := { run := .ended, owner := some 1 } }, rfl, rfl, rfl, issues _ _ rfl⟩,
    ⟨{ cseq := { run := .running, owner := some 1 } }, rfl, rfl, issues _ _ rfl⟩,
    ⟨{ mseq := { run := .stopped, owner := some 1, cause := 0x07 } }, rfl, rfl, by decide, by decide, issues _ _ rfl⟩,
    ⟨{ cseq := { run := .stopped, owner := some 1, cause := 0x07 } }, rfl, rfl, by decide, by decide, issues _ _ rfl⟩, ⟨rfl, rfl⟩,
    ⟨{ mseq := { run := .running, owner := some 2 } }, by decide, by decide, issues _ _ rfl, usable _ _ (by decide)⟩, rfl, usable _ _ (by decide), rfl, by decide, by decide, by decide, rfl⟩

/-! What ends waits, and the module's own agents -/

/-- One clause after another: marker; YIELD with an empty set and with 64 clk over; WAITALL; FENCE; a trap that waits; a deferred cause. -/
theorem witness_GroupWaitsEnd (g : Group) : (onCore {} g).grp 0 0 = some g
    ∧ (({ g0 with park := .marker } : Group).park = .marker ∧ ({ g0 with park := .marker } : Group).pend = [])
    ∧ (64 ≤ ({ onCore {} { g0 with park := .yield [1] 64 } with dies := [(0, { clk := 64 })] } : State).clkOf 0)
    ∧ (onCore {} { g0 with park := .waitall }).ownWritesDone 1 = true
    ∧ (∀ k ∈ [(0 : BitVec 2), 1, 2], (onCore {} { g0 with park := .fence k .system 0 }).writesPerformed 1 0 0 .system 0 = true
        ∧ (onCore {} { g0 with park := .fence k .system 0 }).valuesHeld 1 0 = true ∧ (onCore {} { g0 with park := .fence k .system 0 }).shadows = [])
    ∧ (({ g0 with trapPend := some ⟨0x44, 1, [], 16, false, 0⟩ } : Group).slots.look 0 = some (split 16 0xFFFFFFFF 0 0))
    ∧ ((onCore {} { g0 with deferred := [⟨0x48, [(31, 0)], false⟩] }).iss 0 0 0 = some (issuer { g0 with deferred := [⟨0x48, [(31, 0)], false⟩] })
        ∧ ({ g0 with deferred := [⟨0x48, [(31, 0)], false⟩] } : Group).deferredFor (split 16 0xFFFFFFFF 0 0) = some ⟨0x48, [(31, 0)], false⟩)
    -- the group that takes it, and those that do not
    ∧ (g0.pend = [] ∧ g0.park = .run ∧ g0.trapPend = none ∧ ((onCore {} g0).core 0).halted = false)
    ∧ ({ g0 with park := .waitall } : Group).park ≠ .run ∧ ({ g0 with trapPend := some ⟨0x44, 1, [], 16, false, 0⟩ } : Group).trapPend ≠ none
    ∧ ((onCore { halted := true } g0).core 0).halted = true :=
  ⟨rfl, ⟨rfl, rfl⟩, by decide, by decide, by decide, rfl, ⟨rfl, by decide⟩, ⟨rfl, rfl, rfl, rfl⟩, by decide, by decide, rfl⟩
/-- A spill record of age 2048 and a slot; RDV with both sequencers over. -/
theorem witness_GroupWaitsEnd_others : ({ g0 with slots := [(0, split 16 1 0 0)], spill := [{ split 20 2 0 0 with age := 2048 }] } : Group).exchangeDue
      = some ({ split 20 2 0 0 with age := 2048 }, 0, split 16 1 0 0)
    ∧ ∃ k : Core, k.halted = false ∧ k.mseq.owner = some 1 ∧ k.mseq.run = .ended ∧ k.cseq.owner = some 1 ∧ k.cseq.run = .ended
        ∧ (onCore k { g0 with park := .rdv 0 9 false }).grp 0 0 = some { g0 with park := .rdv 0 9 false } :=
  ⟨by decide, { mseq := { run := .ended, owner := some 1 }, cseq := { run := .ended, owner := some 1 } }, rfl, rfl, rfl, rfl, rfl, rfl⟩

/-- A group whose split waits. -/
def waitIn (w : Wait) : Group := { g0 with slots := [(0, { split 16 0xFFFFFFFF 0 0 with wait := w })] }

theorem lives (s : State) (x : Group) (hu : s.findUid 1 = some (0, 0)) (hc : ∀ p ∈ s.cores, ∀ q ∈ p.2.groups, p.1 = 0 ∧ q.1 = 0) (hx : s.grp 0 0 = some x)
    (h : (s.core 0).halted = false ∧ s.poisoned = [] ∧ s.shadows = []) : Lives s 1 0 0 x :=
  ⟨hu, fun p hp q hq _ => hc p hp q hq, hx, h⟩

/-- TFREE, CWAIT, ACC2V and PUBLISH. -/
theorem witness_SplitWaitsEnd : (∀ w, (onCore (tCore (aTile 7 0 8)) (waitIn w)).grp 0 0 = some (waitIn w) ∧ (0, { split 16 0xFFFFFFFF 0 0 with wait := w }) ∈ (waitIn w).slots)
    ∧ (((tCore (aTile 7 0 8)).tile 0).valid = true ∧ ((tCore (aTile 7 0 8)).tile 0).fills = 0 ∧ ((tCore (aTile 7 0 8)).tile 0).reads = [] ∧ ((tCore (aTile 7 0 8)).tile 0).writes = [])
    ∧ (waitIn (.cwait 7)).spill = [] ∧ (∀ op ∈ (batchOf (waitIn (.cwait 7)).batches 7).ops, (onCore {} (waitIn (.cwait 7))).copyOf op = none)
    ∧ (∀ o ∈ ((onCore { aCore with mqueue := [⟨5, .grp 1, 0, 0, 1, false, .mzero 0⟩] } (waitIn (.acc2v 5 6 0 3 88 0))).core 0).mqueue, 5 ≤ o.op)
    ∧ (∃ F, maccFmt 6 = some F ∧ (88 : BitVec 7).toNat + maccRegs (6 : BitVec 4).toNat ≤ 96)
    ∧ (∀ p ∈ (onCore {} (waitIn (.publish 2))).ops, p.2.uid ≠ 1)
    -- PUBLISH at a window that is registered, and at one that no longer is
    ∧ (waitIn (.publish 2)).slots.look 0 = some { split 16 0xFFFFFFFF 0 0 with wait := .publish 2 } ∧ (waitIn (.publish 2)).sup = false
    ∧ (SMap.get ({} : Window) ({ onCore {} (waitIn (.publish 2)) with windows := [(2, { en := true })] } : State).windows 2).en = true
    ∧ (SMap.get ({} : Window) (onCore {} (waitIn (.publish 2))).windows 2).en = false
    ∧ (onCore {} (waitIn (.publish 2))).iss 0 0 0 = some (issuer (waitIn (.publish 2))) ∧ (issuer (waitIn (.publish 2))).sp = { split 16 0xFFFFFFFF 0 0 with wait := .publish 2 } :=
  ⟨fun _ => ⟨rfl, by simp [waitIn]⟩, by decide, rfl, by decide, by decide, ⟨_, rfl, by decide⟩, by decide, rfl, rfl, rfl, rfl, rfl, rfl⟩

/-- The memory of `qState` with page tables as far as the last level for the address 2^34, whose leaf is missing, and one free frame in the pool. -/
def mapMem : SMap Byte := [(0x800, 1), (0x803, 1), (0x831, 0x50), (0x1000, 1), (0x1003, 2), (0x2000, 0x3F), (0x2008, 1), (0x200B, 3), (0x3000, 1), (0x3003, 4), (0x5001, 0x60),
  (0x5008, 1), (0x6000, 7)]
def mapState (m : SMap Byte) (o : Op) (w : Wait) (k : Core := aCore) : State :=
  { withOp o k (waitIn w) with mem := m, tags := [(0, 320)], ctxs := [(0, { live := true, quota := 0x800 })] }
def mapOp (va : Dword) : Op := anOp (.mappg []) 95 1 1 [⟨0, va, .global, [], 0, [0], none⟩]

set_option maxRecDepth 20000 in
theorem witness_SplitWaitsEnd_operations : (mapOp (2 ^ 34)).mask = 1 <<< (0 : Nat) ∧ (mapOp (2 ^ 34)).d.toNat < 96
    ∧ Lives (mapState mapMem (mapOp (2 ^ 34)) (.mappg 0)) 1 0 0 (waitIn (.mappg 0))
    ∧ (mapState mapMem (mapOp (2 ^ 34)) (.mappg 0)).ops.look 0 = some (mapOp (2 ^ 34)) ∧ (mapState mapMem (mapOp (2 ^ 34)) (.mappg 0)).badSectors = []
    ∧ (mapState mapMem (mapOp (2 ^ 34)) (.mappg 0)).mapEnd 0 (2 ^ 34 / 65536) = .missing 0 0x4000
    ∧ (mapState mapMem (mapOp (2 ^ 34)) (.mappg 0)).rdM ((mapState mapMem (mapOp (2 ^ 34)) (.mappg 0)).pool 0 + 0xA0) 1 ≤ 8
    ∧ 0 < (mapState mapMem (mapOp (2 ^ 34)) (.mappg 0)).listCount 0 0
    ∧ (mapState mapMem (mapOp (2 ^ 34)) (.mappg 0)).rdM ((mapState mapMem (mapOp (2 ^ 34)) (.mappg 0)).listBase 0 0 + 4 * (1 - 1)) 4 = 7
    ∧ (mapState mapMem (mapOp (2 ^ 34)) (.mappg 0)).frameFree ((mapState mapMem (mapOp (2 ^ 34)) (.mappg 0)).dpaOf false 0 (7 * 65536)) 0 = true
    -- a mapped page, and a root entry that is no table
    ∧ (mapState mapMem (mapOp 0) (.mappg 0)).mapEnd 0 0 = .mapped ∧ (mapState ((0x800, 3) :: mapMem.tail) (mapOp 0) (.mappg 0)).mapEnd 0 0 = .bad
    -- TLBINV
    ∧ Lives (withOp (anOp (.tlbinv none) 0 0 1 []) aCore (waitIn (.tlbinv 0))) 1 0 0 (waitIn (.tlbinv 0))
    ∧ (withOp (anOp (.tlbinv none) 0 0 1 []) aCore (waitIn (.tlbinv 0))).accessesDone 0 0 = true := by
  refine ⟨by decide, by decide, lives _ _ (by decide) (by decide) rfl ⟨rfl, rfl, rfl⟩, rfl, rfl, by decide, by decide, by decide, by decide, by decide, by decide, by decide,
    lives _ _ (by decide) (by decide) rfl ⟨rfl, rfl, rfl⟩, by decide⟩

/-- MPERM: the identity permutation of 128 elements has come. -/
def permOp : Op := anOp .mperm 0 0 1 [{ locAt 0 0 128 [] with val := some ((List.range 32).map fun i => BitVec.ofNat 32 (4 * i + (4 * i + 1) * 2 ^ 8 + (4 * i + 2) * 2 ^ 16 + (4 * i + 3) * 2 ^ 24)) }]
set_option maxRecDepth 20000 in
theorem witness_SplitWaitsEnd_permutation : ∃ I, (withOp permOp aCore (waitIn (.mperm 0))).permWaiter permOp = some (.grp I)
    ∧ (withOp permOp aCore (waitIn (.mperm 0))).iss I.c I.g I.k = some I ∧ (withOp permOp aCore (waitIn (.mperm 0))).ops.look permOp.op = some permOp
    ∧ (withOp permOp aCore (waitIn (.mperm 0))).poisoned = [] ∧ ((withOp permOp aCore (waitIn (.mperm 0))).core I.c).mqueue.length < 16
    ∧ ((withOp permOp aCore (waitIn (.mperm 0))).core I.c).halted = false ∧ I.gr.park = .run ∧ I.gr.trapPend = none ∧ I.gr.sup = false
    ∧ ((withOp permOp aCore (waitIn (.mperm 0))).queueWaiters I.c true .matrixQueue).head? = some (.split I.c I.g I.k)
    ∧ ∃ l v, permOp.lanes = [l] ∧ l.val = some v ∧ v ≠ [] ∧ permOk ((v.flatMap fun w => toBytes 4 w.toNat).map BitVec.toNat) = true :=
  ⟨_, rfl, rfl, rfl, rfl, by decide, rfl, rfl, rfl, rfl, by decide, _, _, rfl, rfl, by decide, by decide⟩

/-- A barrier word of one participant and one of two that awaits its last arrival, and a queue's first waiter with a slot for it. -/
theorem witness_SplitWaitsEnd_barrier : ∀ off ∈ [8, 16], ∃ s : State, (s.core 0).arrivals = [⟨off, 1, 0, 0, 1, 0, 0⟩] ∧ s.arrivalReady 0 ⟨off, 1, 0, 0, 1, 0, 0⟩ = true
    ∧ (∀ b ∈ fromN off 8, s.lsHome 0 0 b = none) ∧ 0 < expected ((s.core 0).bar off) ∧ awaited ((s.core 0).bar off) = 1
    ∧ s.grp 0 0 = some (waitIn (.phase off (phaseOf ((s.core 0).bar off)))) := by
  intro off h
  refine ⟨onCore { aCore with arrivals := [⟨off, 1, 0, 0, 1, 0, 0⟩] } (waitIn (.phase off 0)), rfl, ?_, ?_, ?_, ?_, ?_⟩ <;>
    (simp only [List.mem_cons, List.not_mem_nil, or_false] at h; rcases h with rfl | rfl <;> first | rfl | decide)
def grantOp : Op := anOp (.qpush 0x10040) 94 2 1 [⟨0, 0, .global, [], 0, [], none⟩]
def grantGroup : Group := { gQ with park := .qpush 0 0x10040 }
def grantState : State := { qState grantGroup with ops := [(0, grantOp)], queues := [(0x10040, { pushers := [(1, 0)] })] }
set_option maxRecDepth 50000 in
theorem witness_SplitWaitsEnd_queue : (SMap.get ({} : Queue) grantState.queues 0x10040).pushers = [(grantOp.uid, grantOp.op)] ∧ grantOp.d.toNat + 2 ≤ 96 ∧ grantState.badSectors = []
    ∧ grantState.ops.look 0 = some grantOp ∧ Lives grantState 1 0 0 grantGroup ∧ ((grantState.pushSlot 0x10040 grantGroup.ident).map Prod.fst) = some 0 :=
  ⟨rfl, by decide, rfl, rfl, lives _ _ (by decide) (by decide) rfl ⟨rfl, rfl, rfl⟩, by decide⟩
theorem witness_SplitWaitsEnd_arrival : ∃ s : State, (s.core 0).arrivals = [⟨8, 1, 1, 0, 1, 0, 0⟩] ∧ s.arrivalReady 0 ⟨8, 1, 1, 0, 1, 0, 0⟩ = true
    ∧ (∀ b ∈ fromN 8 8, s.lsHome 0 0 b = none) ∧ 1 < expected ((s.core 0).bar 8) ∧ 1 < awaited ((s.core 0).bar 8) :=
  ⟨onCore { aCore with ls := [(8, 2), (10, 2)], arrivals := [⟨8, 1, 1, 0, 1, 0, 0⟩] } g0, rfl, by decide, by decide, by decide, by decide⟩

/-- The core whose oldest matrix operation is of a kind. -/
def mState (kind : MatrixKind) (k : Core := aCore) : State := onCore { k with mqueue := [⟨0, .grp 1, 0, 0, 0x80000001, false, kind⟩] } g0

theorem witness_MatrixEnginePerforms : (∀ kind, Oldest (mState kind) 0 ⟨0, .grp 1, 0, 0, 0x80000001, false, kind⟩ [])
    ∧ (onCore aCore (waitIn .matrixQueue)).queueWaiters 0 true .matrixQueue = [.split 0 0 0] ∧ ((onCore aCore (waitIn .matrixQueue)).core 0).mqueue.length < 16
    -- a slot that is not loaded, one whose image has the format, one with another and one that is marked
    ∧ (∃ x, mmaFmt (8 : BitVec 4).toNat = some x
        ∧ (((mState (.mma 0 0 7 8 true true)).core 0).slot 7).mark = false ∧ (((mState (.mma 0 0 7 8 true true)).core 0).slot 7).tag = 0xF
        ∧ (((mState (.mma 0 0 7 8 true true) { aCore with weights := [(7, { tag := 5 })] }).core 0).slot 7).tag.toNat = x.b
        ∧ (((mState (.mma 0 0 7 8 true true) { aCore with weights := [(7, { tag := 4 })] }).core 0).slot 7).tag.toNat ≠ x.b
        ∧ (((mState (.mma 0 0 7 8 true true) { aCore with weights := [(7, { mark := true })] }).core 0).slot 7).mark = true)
    ∧ (∃ F, maccFmt 10 = some F) ∧ (3 : Nat) < 4 :=
  ⟨fun _ => ⟨rfl, rfl, rfl⟩, by decide, by decide, ⟨_, rfl, by decide⟩, ⟨_, rfl⟩, by decide⟩
/-- MLDB with its stream read, and with the cause that its read met. -/
theorem witness_MatrixEnginePerforms_load : ∀ q ∈ [({ bytes := toBytes 16 (1 + 2 ^ 79 + 5 * 2 ^ 80) } : Stream), { fail := some (0x45, 8) }], ∃ s : State,
    Oldest s 0 ⟨0, .grp 1, 0, 0, 0x80000001, false, .mldb 3 8⟩ [] ∧ (s.core 0).streams = [(0, q)] ∧ q.need = [] ∧ Lives s 1 0 0 g0
    ∧ g0.defer 0x45 ((lanes 0x80000001).map fun L => (L, BitVec.ofNat 64 8)) false ≠ none := by
  intro q hq
  refine ⟨mState (.mldb 3 8) { aCore with streams := [(0, q)] }, ⟨rfl, rfl, rfl⟩, rfl, ?_, lives _ _ rfl ?_ rfl ⟨rfl, rfl, rfl⟩, by decide⟩
  · simp only [List.mem_cons, List.not_mem_nil, or_false] at hq
    rcases hq with rfl | rfl <;> rfl
  · intro p hp q' hq'
    simp only [mState, onCore, List.mem_singleton] at hp; subst hp
    simp only [List.mem_singleton] at hq'; subst hq'
    exact ⟨rfl, rfl⟩

/-- A copy that has read a byte for the last place of the partition. -/
def readCopy (lane : Bool) : CopyOp := { aCopy with lane := lane, wuid := 2, bytes := 1, cells := [⟨.loc 0 65535, 7, 0⟩] }
theorem witness_CopyEngineEvents (lane : Bool) : CopyRead (onCore { aCore with loadQ := [readCopy lane] } g0) (readCopy lane) 0 0 g0
    ∧ (readCopy lane).lane = lane ∧ (readCopy lane).d.toNat < 96 ∧ (onCore { aCore with loadQ := [readCopy lane] } g0).wgLives (readCopy lane).wuid = true := by
  refine ⟨⟨rfl, ?_, rfl, ?_, ?_, rfl, rfl, rfl, rfl, lives _ _ rfl ?_ rfl ⟨rfl, rfl, rfl⟩, rfl⟩, rfl, by simp [readCopy, aCopy], rfl⟩
  · intro y hy
    rw [List.mem_singleton.mp hy]
    exact ⟨0, 65535, rfl, rfl⟩
  · intro _ n h; simp [readCopy, aCopy] at h
  · intro p hp y hy _
    simp only [onCore, List.mem_singleton] at hp; subst hp
    simp only [aCore, List.append_nil, List.mem_singleton] at hy; subst hy; exact Nat.le_refl _
  · intro p hp q hq
    simp only [onCore, List.mem_singleton] at hp
    subst hp
    simp only [List.mem_singleton] at hq
    subst hq
    exact ⟨rfl, rfl⟩
theorem witness_CopyEngineEvents_others : (onCore aCore (waitIn (.copyQueue false))).queueWaiters 0 false (.copyQueue false) = [.split 0 0 0]
    ∧ ((onCore aCore (waitIn (.copyQueue false))).core 0).loadQ.length < 16 ∧ ((onCore aCore (waitIn (.copyQueue false))).core 0).halted = false
    ∧ (onCore aCore (waitIn (.copyQueue true))).queueWaiters 0 false (.copyQueue true) = [.split 0 0 0]
    ∧ (onCore aCore (waitIn (.copyQueue true))).queueWaiters 0 false (.copyQueue false) = []
    -- a sequencer past ENDSEQ, of a group and of none
    ∧ (∀ o ∈ [none, some 1], (onSeq { aCore with cseq := { run := .ending, owner := o } } true).seqBusy 0 true = false
        ∧ ((onSeq { aCore with cseq := { run := .ending, owner := o } } true).core 0).halted = false
        ∧ (((onSeq { aCore with cseq := { run := .ending, owner := o } } true).core 0).seqOf true).run = .ending)
    -- a publish with bytes on either side of its counter
    ∧ ∃ s : State, s.shadows = [] ∧ (SMap.get ({} : Window) s.windows 7).drains = [[(hostBase + 15, 1), (hostBase + 24, 2)]] ∧ (SMap.get ({} : Window) s.windows 7).ctr.toNat = 16
        ∧ ∀ p ∈ [(hostBase + 15, (1 : Byte)), (hostBase + 24, 2)], p.1 < hostBase + 16 ∨ hostBase + 16 + 8 ≤ p.1 :=
  ⟨by decide, by decide, rfl, by decide, by decide, by decide, { State.reset with windows := [(7, { ctr := 16, drains := [[(hostBase + 15, 1), (hostBase + 24, 2)]] })] }, rfl, rfl, rfl, by decide⟩

/-- A group without lanes whose workgroup and launch end with it; one that detaches; one whose lanes have triggered or exited. -/
def aLaunch : Launch where
  launch := 9
  ctx := 0
  record := ⟨1, 0, false, 0, 0, 0, 8, [5, 6, 10, 0, 0, 0], 12, 1, 64, 3, 2, 4, 1, 4, 0, false, 0, [1], 0, 0, 0, 1, []⟩
  holds := []
  nextGang := 1
  running := 1
def gEnded : Group := { g0 with slots := [], exited := 0xFFFFFFFF }
theorem witness_GroupsLeave : ∃ s : State, s.grp 0 0 = some gEnded ∧ gEnded.slots = [] ∧ gEnded.spill = [] ∧ gEnded.sup = false ∧ gEnded.trapPend = none ∧ gEnded.pend = []
    ∧ s.ownWritesDone gEnded.uid = true ∧ s.wgOf 0 gEnded.wg = some aWg ∧ (∀ p ∈ (s.core 0).groupsOf gEnded.wg, p.1 = 0) ∧ s.launches.look aWg.launch = some aLaunch :=
  ⟨{ onCore aCore gEnded with launches := [(9, aLaunch)] }, rfl, rfl, rfl, rfl, rfl, rfl, by decide, rfl, by decide, rfl⟩
theorem witness_GroupsLeave_detach : (onCore aCore { g0 with park := .detach }).grp 0 0 = some { g0 with park := .detach }
    ∧ (onCore aCore { g0 with park := .detach }).valuesHeld 1 0 = true ∧ (onCore aCore { g0 with park := .detach }).writesPerformed 1 0 0 .workgroup 0 = true
    ∧ (onCore aCore { g0 with park := .detach }).wgOf 0 0 = some aWg ∧ 3 < aWg.bars := by decide
theorem witness_GroupsLeave_trigger : ∃ x : Group, ∃ s : State, s.grp 0 0 = some x ∧ x.countSent = false ∧ x.triggered ||| x.exited = BitVec.allOnes 32 ∧ s.shadows = []
    ∧ s.valuesHeld x.uid x.trigUpto = true ∧ s.writesPerformed x.uid 0 x.ctx .device x.trigUpto = true ∧ s.wgOf 0 x.wg = some aWg ∧ s.launches.look aWg.launch = some aLaunch
    ∧ ∀ p ∈ ((s.setGrp 0 0 { x with countSent := true }).core 0).groupsOf x.wg, p.2.countSent = true :=
  ⟨{ g0 with triggered := 0xFFFFFFFE, exited := 1 }, { onCore aCore { g0 with triggered := 0xFFFFFFFE, exited := 1 } with launches := [(9, aLaunch)] },
    rfl, rfl, by decide, rfl, by decide, by decide, rfl, rfl, by decide⟩

/-- Walks of a page that is mapped and of one whose leaf is missing, with a miss that waits for the walker. -/
def walkState (w : Walk) : State where
  __ := State.reset
  mem := mapMem
  tags := [(0, 320)]
  ctxs := [(0, { live := true, quota := 0x800 })]
  cores := [(11, { groups := [(0, waitIn (.walk [2 ^ 18]))] })]
  dies := [(0, { walks := [(4, w)], walkQueue := [⟨5, 0, 9, none, false, []⟩] })]
set_option maxRecDepth 20000 in
theorem witness_WalksWaysAndSlices : (walkState ⟨4, 0, 1, none, true, []⟩).dies.look 0 ≠ none
    ∧ ((walkState ⟨4, 0, 1, none, true, []⟩).die 0).walks.look 4 = some ⟨4, 0, 1, none, true, []⟩
    ∧ (walkState ⟨4, 0, 1, none, true, []⟩).walk 0 1 = (.leaf 1 0x3F 0x2000, [0x2000, 0x1000])
    ∧ (∀ pa ∈ [0x2000, 0x1000], ∀ p ∈ ((walkState ⟨4, 0, 1, none, true, []⟩).die 0).pw, p.sector ≠ sectorOf pa)
    ∧ ((walkState ⟨4, 0, 2 ^ 18, none, true, []⟩).walk 0 (2 ^ 18)).1 = .fault 0 ∧ ((walkState ⟨4, 0, 2 ^ 18, none, true, []⟩).core 11).awaits 0 (2 ^ 18) = true
    ∧ 11 / 12 = 0 ∧ (walkState ⟨4, 0, 1, none, true, []⟩).badSram = [] ∧ (walkState ⟨4, 0, 1, none, true, []⟩).shadows = [] := by decide
/-- All 64 walkers busy, and a miss that waits. -/
theorem witness_WalksWaysAndSlices_walkers : ∃ k : Die, (k.walks.erase 4).length = 63 ∧ k.walkQueue = ⟨64, 0, 9, none, false, []⟩ :: [] ∧ k.walks.look 4 = some ⟨4, 0, 1, none, true, []⟩ :=
  ⟨{ walks := (4, ⟨4, 0, 1, none, true, []⟩) :: (List.range 63).map fun i => (i + 5, ⟨i + 5, 1, i, none, true, []⟩), walkQueue := [⟨64, 0, 9, none, false, []⟩] }, by decide, rfl, rfl⟩
theorem witness_WalksWaysAndSlices_ways : (∃ s : State, s.shadows = [] ∧ (∃ x, (3, x) ∈ (s.die 0).cleaning) ∧ (s.die 0).lines ≠ [] ∧ ∀ p ∈ (s.die 0).lines, p.2.way = 3 → s.lineHeld 0 p.1 = false)
    ∧ (∃ s : State, s.sliceTokens 0 2 = false ∧ 2 ∉ (s.die 0).gated ∧ (s.die 0).served ≠ [] ∧ (∀ p ∈ (s.die 0).served, sliceOf p.1 = 2 → p.2 + 2600 ≤ s.now)
        ∧ (∀ p ∈ s.misses, p.2.holder = 0 → sliceOf p.2.sector ≠ 2) ∧ ∀ w ∈ (s.die 0).pw, sliceOf w.sector ≠ 2)
    ∧ ∃ s : State, 2 ∈ (s.die 0).gated ∧ ∃ p ∈ s.misses, p.2.holder = 0 ∧ sliceOf p.2.sector = sliceOf 8 :=
  ⟨⟨{ State.reset with dies := [(0, { lines := [(1, ⟨0, 3, 1, 0⟩)], cleaning := [(3, 0)] })] }, rfl, ⟨0, by decide⟩, by decide, by decide⟩,
    ⟨{ State.reset with dies := [(0, { clk := 3000, served := [(2, 400)] })] }, by decide, by decide, by decide, by decide, by decide, by decide⟩,
    { State.reset with dies := [(0, { gated := [2] })], misses := [(1, ⟨1, 0, 8, false, 0, 0, 0, 0, [], [], false⟩)] }, by decide, by decide⟩

/-! Collectives and exchanges -/

/-- Memory with the descriptor of a COLL at 0x10100 (communicator 3, sum of 32 FP32 elements, rank 1), the record of a DPOST at 0x10300 (communicator
4, rank 1, 200 bytes for rank 0 of which 100 are posted), and their context with both communicators. -/
def cMem : SMap Byte := [(0x800, 1), (0x803, 1), (0x1000, 1), (0x1003, 2), (0x2000, 0x3F), (0x10100, 3), (0x10104, 6), (0x10105, 6), (0x10108, 0x20), (0x10110, 1),
  (0x10300, 4), (0x10302, 1), (0x10305, 0x10), (0x1030A, 2), (0x10312, 3), (0x10320, 100), (0x10340, 200)]
def cCtx : Ctx where
  live := true
  quota := 0x800
  comms := [(3, ⟨0, false, 2, 0, 2, 0, 0x10200, [], 0, 0, 0, 0⟩), (4, ⟨1, false, 2, 0, 2, 0, 0x10208, [], 0x20000, 1, 1, 0x30000⟩)]
def cIssue : CollIssue := ⟨1, 9, 1, 0x10100, 0, 8, 0⟩
def cWg (l : List CollIssue) : Workgroup := { aWg with colls := [(0, l)] }
def cGroup : Group := { g0 with collNext := 1, pend := [9] }
/-- A workgroup whose one group has issued its first COLL. -/
def cState (l : List CollIssue) (t : Tile := aTile 6 0 1) : State where
  __ := State.reset
  cores := [(0, { aCore with groups := [(0, cGroup)], wgs := [(0, cWg l)], tiles := [(0, t)] })]
  mem := cMem
  tags := [(0, 320)]
  ctxs := [(0, cCtx)]
  serial := 1

/-- COLL_MEMBER_ACCEPT: issues that differ, a tile too small, and a member that is accepted. -/
theorem witness_CollectiveEvents_accept : CollDue (cState [cIssue]) 0 0 (cWg [cIssue]) cIssue [] ∧ sameIssues [cIssue] = true
    ∧ CollDue (cState [cIssue, { cIssue with tile := 1 }]) 0 0 (cWg [cIssue, { cIssue with tile := 1 }]) cIssue [{ cIssue with tile := 1 }]
    ∧ sameIssues [cIssue, { cIssue with tile := 1 }] = false := by
  refine ⟨⟨rfl, rfl, rfl, rfl, by decide, by decide⟩, rfl, ⟨rfl, rfl, rfl, rfl, by decide, by decide⟩, by decide⟩
set_option maxRecDepth 50000 in
theorem witness_CollectiveEvents_descriptor : ∃ pas b cm seq s3,
    ((cState [cIssue]).setWg 0 0 (collTaken (cWg [cIssue]))).readDesc 0 0 [1] 1 (0x10100 : Dword).toNat 64 = .ok pas b
    ∧ ((((cState [cIssue]).setWg 0 0 (collTaken (cWg [cIssue]))).touchRange 0 0x10100 64 reading).commOf 0 (field b 0 2)) = some cm
    ∧ collCause b (some cm) (((cState [cIssue]).core 0).tile 0) = none ∧ collCause b (some cm) (((cState [cIssue] (aTile 6 0 0)).core 0).tile 0) = some 0xA2
    ∧ (((cState [cIssue]).setWg 0 0 (collTaken (cWg [cIssue]))).touchRange 0 0x10100 64 reading).takeSeq 0 cm (field b 0x10 2) = .inr (seq, s3) :=
  ⟨_, _, _, _, _, rfl, rfl, by decide, by decide, rfl⟩

/-- A member with its descriptor read. -/
def cMember (mem rank : Nat) : Member where
  mem := mem
  core := 0
  ctx := 0
  exchange := false
  issues := [cIssue]
  desc := 0x10100
  record := [3, 0, 0, 0, 6, 6, 0, 0, 32, 0, 0, 0, 0, 0, 0, 0, 1, 0]
  comm := 3
  rank := rank
  n := 2
  stage := .checked
  tileOff := some 2048
/-- An entry that rank 0 has joined, as member 4. -/
def cEntry : Match := ⟨1, 0, 3, 0, (cMember 4 0).record.take 16, [(0, 4)], 2, false, none, false, []⟩
def joinState (l : List Match) : State := { cState [] with members := [(4, { cMember 4 0 with stage := .joined }), (5, cMember 5 1), (6, cMember 6 0)], matches_ := l }

theorem witness_CollectiveEvents_join : IsMember (joinState []) 5 (cMember 5 1) ∧ (joinState []).meetsPost (cMember 5 1) = false
    ∧ (joinState [cEntry]).matches_.find? (fun z => z.keyed (cMember 5 1) && !z.started) = some cEntry ∧ cEntry.failed = false ∧ cEntry.order = none
    ∧ (∀ z ∈ (joinState [{ cEntry with started := true }]).matches_, z.keyed (cMember 5 1) = true → z.started = true)
    ∧ cEntry.digest = (cMember 5 1).record.take 16 ∧ (∀ p ∈ cEntry.joins, p.1 ≠ (cMember 5 1).rank) ∧ cEntry.joins.length + 1 = cEntry.need
    -- another digest; a rank that has joined
    ∧ cEntry.digest ≠ ({ cMember 5 1 with record := [4] } : Member).record.take 16 ∧ (∃ p ∈ cEntry.joins, p.1 = (cMember 6 0).rank) :=
  ⟨⟨rfl, rfl⟩, rfl, rfl, rfl, rfl, by decide, by decide, by decide, rfl, by decide, ⟨(0, 4), by decide, rfl⟩⟩
def fullEntry : Match := { cEntry with joins := [(0, 4), (1, 5)], order := some 7 }
theorem witness_CollectiveEvents_start : (joinState [fullEntry]).nextMatch 1 = some fullEntry ∧ (joinState [fullEntry]).routesLost fullEntry = false
    ∧ (joinState [fullEntry]).collDies fullEntry = some [0] ∧ (∀ b ∈ [0], (joinState [fullEntry]).occupied b < 16)
    -- every base die of the endpoint has failed
    ∧ ({ joinState [fullEntry] with deadAdders := [0, 1, 2] } : State).collDies fullEntry = none
    -- START_NOTICE
    ∧ (joinState [{ fullEntry with started := true }]).members.look 4 = some { cMember 4 0 with stage := .joined }
    ∧ (joinState [{ fullEntry with started := true }]).matchOf 4 = some { fullEntry with started := true } := by decide
/-- COLL_MEMBER_COMPLETE, with a result in the tile and with a cause. -/
def endMember (cause : Nat) : Member := { cMember 5 1 with stage := .ready, cause := cause, result := [1, 2, 3, 4] }
def endState (y : Member) : State := { cState [] with members := [(5, y)] }
theorem cLives (s : State) (h : s.cores = (cState []).cores) (hp : s.poisoned = [] ∧ s.shadows = []) : Lives s 1 0 0 cGroup := by
  refine lives s _ (by unfold State.findUid; rw [h]; rfl) (by rw [h]; decide) (by unfold State.grp State.core; rw [h]; rfl) ⟨by unfold State.core; rw [h]; rfl, hp⟩
theorem witness_CollectiveEvents_complete : ∀ c ∈ [0, 0xA1], IsMember (endState (endMember c)) 5 (endMember c) ∧ Lives (endState (endMember c)) 1 0 0 cGroup
    ∧ (9 : BitVec 7).toNat < 96 ∧ ∀ j, j < 4 → (endState (endMember c)).lsHome 0 0 (2048 + j) = none := by
  intro c _
  refine ⟨⟨rfl, rfl⟩, cLives _ rfl ⟨rfl, rfl⟩, by decide, ?_⟩
  intro j hj
  have : j = 0 ∨ j = 1 ∨ j = 2 ∨ j = 3 := by omega
  rcases this with rfl | rfl | rfl | rfl <;> rfl

/-- A member of an exchange. -/
def xMember (mem rank : Nat) (st : Stage) : Member where
  mem := mem
  core := 0
  ctx := 0
  exchange := true
  issues := [{ cIssue with desc := 0x10300 }]
  desc := 0x10300
  stage := st
  rank := rank
  comm := 4
  n := 2
  record := (fromN 0x10300 256).map fun a => SMap.get 0 cMem a
def xState (l : List Member) : State := { cState [] with members := l.map fun y => (y.mem, y) }

set_option maxRecDepth 50000 in
theorem witness_ExchangeEvents_record : IsMember (xState [xMember 5 1 .accepted]) 5 (xMember 5 1 .accepted)
    ∧ (∃ k, (xState [xMember 5 1 .accepted]).readDesc 0 0 [1] 5 0x10301 256 = .bad k)
    ∧ ∃ pas b cm seq s2, (xState [xMember 5 1 .accepted]).readDesc 0 0 [1] 5 0x10300 256 = .ok pas b
      ∧ ((xState [xMember 5 1 .accepted]).touchRange 0 0x10300 256 reading).commOf 0 (field b 0 2) = some cm
      ∧ exchangeCause b (some cm) = none ∧ exchangeCause b none = some 0xA3
      ∧ ((xState [xMember 5 1 .accepted]).touchRange 0 0x10300 256 reading).takeSeq 0 cm (xRank b) = .inr (seq, s2) :=
  ⟨⟨rfl, rfl⟩, ⟨_, rfl⟩, _, _, _, _, _, rfl, rfl, by decide, rfl, rfl⟩
/-- Its posts on their way to the two Cartographers. -/
def xPosted (hub : Nat) : PostMsg := ⟨hub, 5, 0, 4, 0, 2, 1, [200, 0], 4096⟩
def postState : State := { xState [xMember 5 1 .checked] with postQ := [xPosted 0, xPosted 1] }
theorem witness_ExchangeEvents_post : ∀ hub ∈ [0, 1], hub ∉ postState.deadHubs ∧ postState.postOf hub 5 = some (xPosted hub)
    ∧ (∀ p ∈ postState.postSets.vals, p.keyed (xPosted hub) = true → p.hub ≠ hub) ∧ (postState.postSets.filter fun p => p.2.hub = hub).length < 64
    ∧ (∀ x ∈ postState.matches_, x.hasKey (xPosted hub).ctx (xPosted hub).comm (xPosted hub).seq = false) ∧ (xPosted hub).n ≠ 1 := by decide
theorem look_members (l : List Member) (k : Nat) (z : Member) (h : SMap.look (l.map fun y => (y.mem, y)) k = some z) : z.mem = k := by
  induction l with
  | nil => cases h
  | cons a l ih =>
    simp only [List.map, SMap.look] at h
    split at h
    · injection h with h; rw [← h]; assumption
    · exact ih h

/-- A member in its phases: one slot from rank 1 to rank 0, then a phase with nothing left to send. -/
def xRun (n : Nat) : Member := { xMember 5 1 .running with phases := [⟨0, 1, [1, 0]⟩, ⟨1, 1, [1, 0]⟩], sent := [1, 0], begun := List.range n }
set_option maxRecDepth 50000 in
theorem witness_ExchangeEvents_phase : (∃ q, (xRun 0).phases[0]? = some q ∧ 0 ∉ (xRun 0).begun ∧ (xRun 0).g0 + 8 * q.start ≤ (xState [xRun 0, xMember 6 0 .running]).clkOf 0
      ∧ min ((xRun 0).toSend 0) (4096 * ((xRun 0).slotsBefore 0 0 + q.dur)) - min ((xRun 0).toSend 0) (4096 * (xRun 0).slotsBefore 0 0) = 100)
    ∧ (∀ k z, (xState [xRun 0, xMember 6 0 .running]).members.look k = some z → z.mem = k)
    ∧ (∃ z l, (xState [xRun 0, xMember 6 0 .running]).partner (xRun 0) 0 = some z ∧ z.unready = false ∧ (xState [xRun 0, xMember 6 0 .running]).phaseBytes (xRun 0) z 0 0 100 = .ok l)
    ∧ (∃ q, (xRun 1).phases[1]? = some q
      ∧ min ((xRun 1).toSend 0) (4096 * ((xRun 1).slotsBefore 1 0 + q.dur)) - min ((xRun 1).toSend 0) (4096 * (xRun 1).slotsBefore 1 0) = 0) := by
  exact ⟨⟨_, rfl, by decide, by decide, by decide⟩, look_members _, ⟨_, _, rfl, rfl, rfl⟩, ⟨_, rfl, by decide⟩⟩

theorem witness_ExchangeEvents_complete : IsMember (xState [xMember 5 1 .ready]) 5 (xMember 5 1 .ready) ∧ Lives (xState [xMember 5 1 .ready]) 1 0 0 cGroup :=
  ⟨⟨rfl, rfl⟩, cLives _ rfl ⟨rfl, rfl⟩⟩
set_option maxRecDepth 50000 in
theorem witness_ExchangeEvents_report : (xRun 2).stage = .running ∧ (xState [xRun 2, xMember 6 0 .running]).exchangeOver (xRun 2) = true
    ∧ (xState [xRun 2]).rangeKinds 0 (0x10300 + 0x80) 96 writing = [] ∧ (xState [xRun 2]).rangePas 0 (0x10300 + 0x80) 96 writing = fromN 0x10380 96 := by decide

/-- A post set of two members, both posted, at a Cartographer. -/
def pSet (hub : Nat) : PostSet := ⟨3, hub, 0, 4, 0, 2, [⟨0, 6, [0, 0], 0⟩, ⟨1, 5, [100, 0], 4096⟩], 0, some 100, none, [], false, none, false⟩
def pState (hub : Nat) (p : PostSet) (ms : List XMsg) (l : List Member) (clk : Nat) : State :=
  { xState l with postSets := [(6 + hub, p)], xmsgs := ms, dies := [(0, { clk := clk })] }
theorem witness_ExchangeEvents_calendar : HasSet (pState 0 (pSet 0) [] [] 0) 0 3 (pSet 0) ∧ (pSet 0).completed ≠ none ∧ (pSet 0).issued = none ∧ (pSet 0).seenIssue = none
    ∧ 0 ∉ (pState 0 (pSet 0) [] [] 0).deadHubs ∧ 1 ∉ (pState 0 (pSet 0) [] [] 0).deadHubs
    -- the second Cartographer: 10400 clk after the set was complete, 2600 after its issue, 10400 after the first's issue
    ∧ (HasSet (pState 1 (pSet 1) [] [] 10500) 1 3 (pSet 1) ∧ 100 + 10400 ≤ (pState 1 (pSet 1) [] [] 10500).now)
    ∧ (∃ p : PostSet, HasSet (pState 1 p [] [] 2700) 1 3 p ∧ p.issued = some 100 ∧ 100 + 2600 ≤ (pState 1 p [] [] 2700).now ∧ p.seenIssue = none ∧ p.acked = true)
    ∧ (∃ p : PostSet, HasSet (pState 1 p [] [] 10500) 1 3 p ∧ p.seenIssue = some 100 ∧ 100 + 10400 ≤ (pState 1 p [] [] 10500).now ∧ p.seenGo = false ∧ p.go = false ∧ p.failed = 0) :=
  ⟨⟨rfl, rfl, rfl⟩, by decide, rfl, rfl, by decide, by decide, ⟨⟨rfl, rfl, rfl⟩, by decide⟩,
    ⟨{ pSet 1 with issued := some 100, acks := [5, 6] }, ⟨rfl, rfl, rfl⟩, rfl, by decide, rfl, by decide⟩,
    ⟨{ pSet 1 with seenIssue := some 100 }, ⟨rfl, rfl, rfl⟩, rfl, by decide, rfl, rfl, rfl⟩⟩
theorem witness_ExchangeEvents_messages : (∀ k, (pState 0 (pSet 0) [⟨2, k, 0, 3, 5⟩] [xMember 5 1 .joined] 0).xmsg 2 k = some ⟨2, k, 0, 3, 5⟩)
    ∧ (∀ k, IsMember (pState 0 (pSet 0) [⟨2, k, 0, 3, 5⟩] [xMember 5 1 .joined] 0) 5 (xMember 5 1 .joined))
    ∧ (pState 0 (pSet 0) [⟨2, .calendar, 0, 3, 5⟩] [xMember 5 1 .joined] 0).postSet 0 3 = some (pSet 0) ∧ (pSet 0).failed = 0 ∧ ({ pSet 0 with failed := 0xA7 } : PostSet).failed ≠ 0
    ∧ (pState 0 (pSet 0) [] [xMember 5 1 .joined] 0).endpointDies 0 ≠ []
    ∧ (∀ b ∈ (pState 0 (pSet 0) [] [xMember 5 1 .joined] 0).endpointDies 0, (pState 0 (pSet 0) [] [xMember 5 1 .joined] 0).occupied b < 16)
    -- an acknowledgement that is not the last, and one that is
    ∧ HasSet (pState 0 (pSet 0) [⟨2, .ack, 0, 3, 5⟩] [] 0) 0 3 (pSet 0) ∧ 5 ∉ (pSet 0).acks ∧ ({ pSet 0 with acks := [5] } : PostSet).acked = false
    ∧ ({ pSet 0 with acks := [6] ++ [5] } : PostSet).acked = true ∧ (pSet 0).go = false
    -- the notices of the first Cartographer
    ∧ ∀ k ∈ [XKind.issueNote, .goNote], ∃ m ∈ (pState 1 (pSet 1) [⟨2, k, 1, 3, 0⟩] [] 0).xmsgs, m.kind = k ∧ m.hub = 1 ∧ m.set_ = 3 :=
  ⟨fun k => by cases k <;> rfl, fun _ => ⟨rfl, rfl⟩, rfl, rfl, by decide, by decide, by decide, ⟨rfl, rfl, rfl⟩, by decide, by decide, by decide, rfl,
    fun k _ => ⟨_, List.mem_singleton.mpr rfl, rfl, rfl, rfl⟩⟩

/-! Coherence -/

/-- A message about sector 4 from an L2 (or another holder), with attempt 1, a token, position 255. -/
def aMsg (k : MsgKind) (src dst : Nat) (write : Bool := false) : Msg := ⟨6, k, 4, src, dst, src, write, 1, 1, true, false, 0, 255, none, 0⟩
/-- The module with that message, and die 1's L2 with tokens of sector 4. -/
def hState (m : Msg) (t : Tok := {}) (clk : Nat := 0) : State where
  __ := State.reset
  msgs := [m]
  toks := [(257, t)]
  serial := 7
  dies := [(0, { clk := clk }), (1, { lines := [(1, ⟨0, 0, 1, 0⟩)] })]

/-- GETS and GETX at the L2 of die 1: with no token, with an owner's 16 and with one token and no ownership; with an ACT for another in force. -/
theorem witness_CoherenceRequests_answers (t : Tok) : AtL2 (hState (aMsg .gets 2 1) t) 6 .gets (aMsg .gets 2 1) ∧ (aMsg .gets 2 1).write = false
    ∧ AtL2 (hState (aMsg .getx 2 1 true) t) 6 .getx (aMsg .getx 2 1 true) ∧ (aMsg .getx 2 1 true).write = true
    ∧ (∀ k ∈ [aMsg .gets 2 1, aMsg .getx 2 1 true], Refuses (hState k) k ∧ ¬ Refuses (hState k ⟨16, true, true, false, 0⟩) k ∧ ¬ Refuses (hState k ⟨1, false, true, false, 0⟩) k
        ∧ Refuses { hState k ⟨16, true, true, false, 0⟩ with acts := [(257, ⟨1, 3, none, false⟩)] } k)
    ∧ ((hState (aMsg .gets 2 1) ⟨16, true, true, false, 0⟩).tok 1 4).owner = true ∧ ((hState (aMsg .gets 2 1) ⟨1, false, true, false, 0⟩).tok 1 4).owner = false := by
  refine ⟨⟨rfl, by decide, rfl, by intro w h; cases h⟩, rfl, ⟨rfl, by decide, rfl, by intro w h; cases h⟩, rfl, ?_, rfl, rfl⟩
  intro k hk
  have hs : k.dst = 1 ∧ k.sector = 4 ∧ k.src = 2 := by
    simp only [List.mem_cons, List.not_mem_nil, or_false] at hk; rcases hk with rfl | rfl <;> exact ⟨rfl, rfl, rfl⟩
  have free : ∀ t : Tok, t.tokens ≠ 0 → ¬ Refuses (hState k t) k := by
    intro t ht h
    unfold Refuses at h
    rw [hs.1, hs.2.1] at h
    rcases h with h | h | ⟨a, h, _⟩
    · exact ht h
    · exact absurd h (by show ¬ (((Die.gated { lines := [(1, ⟨0, 0, 1, 0⟩)] }).contains (sliceOf 4) && true) = true); decide)
    · cases h
  refine ⟨.inl ?_, free _ (by decide), free _ (by decide), .inr (.inr ⟨⟨1, 3, none, false⟩, ?_, ?_⟩)⟩
  · rw [hs.1, hs.2.1]; rfl
  · rw [hs.1, hs.2.1]; rfl
  · rw [hs.2.2]; decide
theorem witness_CoherenceRequests_home : (hState (aMsg .gets 2 homeId)).msgOf 6 .gets = some (aMsg .gets 2 homeId) ∧ (hState (aMsg .gets 2 homeId)).homeReads.get false 4 = false
    ∧ (∃ s : State, s.homeReads.look 4 = some false ∧ s.homeAnswers = [aMsg .gets 2 homeId])
    -- a refusal of the running attempt
    ∧ ∃ s : State, s.msgOf 6 .nack = some (aMsg .nack 1 2) ∧ s.missOf 2 4 = some (3, ⟨3, 2, 4, false, 1, 0, 24, 0, [], [], false⟩) :=
  ⟨rfl, rfl, ⟨{ State.reset with homeReads := [(4, false)], homeAnswers := [aMsg .gets 2 homeId] }, rfl, rfl⟩,
    { hState (aMsg .nack 1 2) with misses := [(3, ⟨3, 2, 4, false, 1, 0, 24, 0, [], [], false⟩)] }, rfl, rfl⟩
/-- The home of sector 4 has read it, and holds a residue; a read that it answers, a write, and what it refuses. -/
def homeState (k : MsgKind) (r : Residue := {}) (p : Persist := {}) : State :=
  { hState (aMsg k 2 homeId (decide (k = .getx))) with homeReads := [(4, true)], residues := [(4, r)], persists := [(4, p)] }
theorem witness_CoherenceRequests_homeAnswers : ∀ k ∈ [MsgKind.gets, .getx], (homeState k).msgOf 6 k = some (aMsg k 2 homeId (decide (k = .getx))) ∧ (homeState k).homeReads.get false 4 = true
    ∧ (homeState k).shadows = [] ∧ ¬ HomeRefuses (homeState k) (aMsg k 2 homeId (decide (k = .getx))) ∧ ((homeState k).tok homeId 4).owner = true
    ∧ HomeRefuses (homeState k { count := 0 }) (aMsg k 2 homeId (decide (k = .getx))) ∧ HomeRefuses (homeState k { parityOk := false }) (aMsg k 2 homeId (decide (k = .getx)))
    ∧ HomeRefuses (homeState k {} { active := some 1 }) (aMsg k 2 homeId (decide (k = .getx)))
    ∧ ((homeState k { count := 1, owner := false }).tok homeId 4).owner = false := by
  intro k hk
  refine ⟨?_, rfl, rfl, ?_, rfl, .inl rfl, .inr (.inl rfl), .inr (.inr ⟨1, rfl, by show (1 : Nat) ≠ 2; decide⟩), rfl⟩
  · simp only [List.mem_cons, List.not_mem_nil, or_false] at hk; rcases hk with rfl | rfl <;> rfl
  · rintro (h | h | ⟨a, h, _⟩)
    · exact absurd h (by show ¬ (16 : Nat) = 0; decide)
    · cases h
    · cases h
/-- A message that is young, one that is too old, and an old PREQ whose batch waited for it. -/
theorem witness_CoherenceRequests_expire : (∀ m ∈ (hState (aMsg .wb 2 1) {} 2600).msgs, m.msg = 6 → (hState (aMsg .wb 2 1) {} 2600).now ≤ m.born + 2600)
    ∧ (∀ k ∈ [MsgKind.data, .preq], aMsg k 2 homeId ∈ (hState (aMsg k 2 homeId) {} 2601).msgs ∧ (aMsg k 2 homeId).born + 2600 < (hState (aMsg k 2 homeId) {} 2601).now
        ∧ (∀ y ∈ (hState (aMsg k 2 homeId) {} 2601).msgs, y.msg = 6 → y = aMsg k 2 homeId) ∧ (hState (aMsg k 2 homeId) {} 2601).recreates.look 4 = none)
    ∧ ∃ s : State, s.msgs = [aMsg .preq 2 homeId] ∧ s.shadows = [] ∧ (s.persistOf 4).batch = [] ∧ (s.persistOf 4).recorded ≠ [] ∧ 2600 < s.now :=
  ⟨by decide, by decide, { hState (aMsg .preq 2 homeId) {} 2601 with persists := [(4, { recorded := [(1, false)] })] }, rfl, rfl, rfl, by decide, by decide⟩
theorem witness_CoherenceRequests_tokens : ∀ k ∈ [MsgKind.tok, .data, .wb], (hState (aMsg k 2 homeId)).msgOf 6 k = some (aMsg k 2 homeId)
    ∧ ((hState (aMsg k 2 homeId)).persistOf 4).active = none ∧ (aMsg k 2 homeId).serial = ((hState (aMsg k 2 homeId)).tok homeId 4).serial
    ∧ (hState (aMsg k 2 1)).msgOf 6 k = some (aMsg k 2 1) ∧ (hState (aMsg k 2 1)).gatedAt 1 4 = false ∧ (hState (aMsg k 2 1)).ops = []
    ∧ ((hState (aMsg k 2 1)).die 1).pw = [] ∧ (hState (aMsg k 2 1)).acts.look 257 = none ∧ (∃ p ∈ ((hState (aMsg k 2 1)).die 1).lines, p.1 = 4 / 4)
    -- a stale serial
    ∧ (aMsg k 2 homeId).serial ≠ (State.tok { hState (aMsg k 2 homeId) with residues := [(4, { serial := 1 })] } homeId 4).serial := by decide
theorem witness_CoherenceRequests_deadline : ∃ (s : State) (m : Miss), s.misses.look 3 = some m ∧ s.needMet m = false ∧ m.persistent = false ∧ m.started + 1300 ≤ s.now
    ∧ m.attempt = 1 :=
  ⟨{ hState (aMsg .nack 1 2) {} 1300 with misses := [(3, ⟨3, 2, 4, false, 1, 0, 24, 0, [], [], false⟩)] }, _, rfl, by decide, rfl, by decide, by decide⟩
theorem witness_CoherenceRequests_persistent : ∃ (s : State) (m : Miss), s.misses.look 3 = some m ∧ s.needMet m = false ∧ m.persistent = false ∧ m.started + 1300 ≤ s.now
    ∧ 2 ≤ m.attempt ∧ m.holder ∉ (s.persistOf m.sector).served ∧ m.holder ∉ (s.persistOf m.sector).batch
    ∧ (∀ r ∈ (s.persistOf m.sector).recorded, r.1 ≠ m.holder) ∧ s.preqsOf m.holder (tableOf m.sector) < 6 :=
  ⟨{ hState (aMsg .nack 1 2) {} 1300 with misses := [(3, ⟨3, 2, 4, true, 2, 0, 24, 0, [], [], false⟩)] }, _, rfl, by decide, rfl, by decide, by decide, by decide, by decide, by decide, by decide⟩
/-- Six requests recorded at one base die. -/
theorem witness_CoherenceRequests_seventh : ∃ (s : State) (m : Miss), s.misses.look 3 = some m ∧ s.needMet m = false ∧ m.persistent = false ∧ m.started + 1300 ≤ s.now
    ∧ 2 ≤ m.attempt ∧ m.holder ∉ (s.persistOf m.sector).served ∧ m.holder ∉ (s.persistOf m.sector).batch
    ∧ (∀ r ∈ (s.persistOf m.sector).recorded, r.1 ≠ m.holder) ∧ 6 ≤ s.preqsOf m.holder (tableOf m.sector) :=
  ⟨{ hState (aMsg .nack 1 2) {} 1300 with
      misses := [(3, ⟨3, 2, 4, true, 2, 0, 24, 0, [], [], false⟩)]
      persists := [5, 6, 7, 16, 17, 18].map fun x => (x, { recorded := [(2, true)] }) }, _, rfl, by decide, rfl, by decide, by decide, by decide, by decide, by decide, by decide⟩

/-- PREQ with nothing recorded, and with a batch that runs; DONE that leaves one and none in the batch. -/
def pRun (l : List Nat) (k : MsgKind) : State := { hState (aMsg k 2 homeId) with persists := [(4, { batch := l, active := l.head?, pos := 255 })] }
theorem witness_PersistentRequestsAndRecreation : (pRun [] .preq).msgOf 6 .preq = some (aMsg .preq 2 homeId) ∧ ((pRun [] .preq).persistOf 4).batch = []
    ∧ ((pRun [] .preq).persistOf 4).recorded = [] ∧ (∀ y ∈ (pRun [] .preq).msgs, y.msg = 6) ∧ ((pRun [1] .preq).persistOf 4).batch ≠ [] ∧ (∀ r ∈ ((pRun [1] .preq).persistOf 4).recorded, r.1 ≠ 2)
    ∧ (pRun [2, 3] .done).msgOf 6 .done = some (aMsg .done 2 homeId) ∧ ((pRun [2, 3] .done).persistOf 4).active = some 2 ∧ ((pRun [2, 3] .done).persistOf 4).pos = 255
    ∧ ((pRun [2, 3] .done).persistOf 4).batch = 2 :: 3 :: [] ∧ ((pRun [2] .done).persistOf 4).batch = [2] ∧ ((pRun [2] .done).persistOf 4).recorded = [] := by decide
/-- ACT at a holder with tokens and none in force, and with an earlier one (255 before 0); DEACT of the one in force and of one that has not come. -/
theorem witness_PersistentRequestsAndRecreation_act : AtL2 (hState (aMsg .act 2 1) ⟨3, true, true, true, 0⟩) 6 .act (aMsg .act 2 1) ∧ (aMsg .act 2 1).requester ≠ 1
    ∧ (hState (aMsg .act 2 1)).deacts = [] ∧ (hState (aMsg .act 2 1)).acts.look 257 = none ∧ laterPos 254 255 = false ∧ laterPos 255 0 = false ∧ laterPos 0 255 = true
    ∧ (∃ s : State, s.msgOf 6 .deact = some (aMsg .deact homeId 1) ∧ s.acts.look 257 = some ⟨255, 2, none, false⟩)
    ∧ (∃ s : State, s.msgOf 6 .deact = some (aMsg .deact homeId 1) ∧ s.acts.look 257 = some ⟨254, 2, none, false⟩)
    ∧ (hState (aMsg .deact homeId 1)).msgOf 6 .deact = some (aMsg .deact homeId 1) ∧ (hState (aMsg .deact homeId 1)).acts.look 257 = none :=
  ⟨⟨rfl, by decide, rfl, by decide⟩, by decide, rfl, rfl, by decide, by decide, by decide, ⟨{ hState (aMsg .deact homeId 1) with acts := [(257, ⟨255, 2, none, false⟩)] }, rfl, rfl⟩,
    ⟨{ hState (aMsg .deact homeId 1) with acts := [(257, ⟨254, 2, none, false⟩)] }, rfl, rfl⟩, rfl, rfl⟩
theorem witness_PersistentRequestsAndRecreation_recreate : (∃ s : State, s.recreateHeld 4 = false ∧ (s.persistOf 4).active = some 2 ∧ (s.persistOf 4).actClk + 26000 ≤ s.now
      ∧ s.recreates.look 4 = none)
    ∧ (∃ s : State, s.recreateHeld 4 = false ∧ 4 ∈ s.recrHeld) ∧ AtL2 (hState (aMsg .recr homeId 1) ⟨3, true, true, true, 0⟩) 6 .recr (aMsg .recr homeId 1)
    ∧ ((hState (aMsg .recr homeId 1) ⟨3, true, true, true, 0⟩).tok 1 4).owner = true ∧ ((hState (aMsg .recr homeId 1) ⟨3, true, true, true, 0⟩).tok 1 4).valid = true
    -- RACK of the last holder and of another
    ∧ (∀ l ∈ [[1], [1, 2]], ∃ (s : State) (r : Recreate), s.msgOf 6 .rack = some (aMsg .rack 1 homeId) ∧ s.recreates.look 4 = some r ∧ r.gotOwner = true ∧ r.parity = false
        ∧ r.awaited = l ∧ (s.persistOf 4).batch = []) ∧ [1].filter (fun h => h ≠ 1) = [] ∧ [1, 2].filter (fun h => h ≠ 1) ≠ []
    -- the last RACK of a sector whose owned data is lost, and one that announces data
    ∧ (∃ (s : State) (r : Recreate), s.msgOf 6 .rack = some { aMsg .rack 1 homeId with owner := false } ∧ s.recreates.look 4 = some r ∧ r.awaited = [1] ∧ r.gotOwner = false ∧ r.due = false
        ∧ r.parity = false ∧ (s.persistOf 4).batch = [] ∧ ∀ p ∈ s.misses, p.2.sector ≠ 4)
    ∧ (aMsg .rack 1 homeId).owner = true :=
  ⟨⟨{ pRun [2] .done with dies := [(0, { clk := 26000 })] }, by decide, by decide, by decide, rfl⟩, ⟨{ State.reset with recrHeld := [4] }, rfl, by decide⟩,
    ⟨rfl, by decide, rfl, by decide⟩, rfl, rfl, fun l _ => ⟨{ hState (aMsg .rack 1 homeId) with recreates := [(4, ⟨1, l, [], true, false, false⟩)] }, _, rfl, rfl, rfl, rfl, rfl, rfl⟩,
    by decide, by decide,
    ⟨{ hState { aMsg .rack 1 homeId with owner := false } with recreates := [(4, ⟨1, [1], [], false, false, false⟩)] }, _, rfl, rfl, rfl, rfl, rfl, rfl, rfl, by intro p hp; cases hp⟩, rfl⟩

/-! The host, launches, contexts, the module -/

/-- Sector 5 as the port agent holds it. -/
def aState (t : Tok) (lines : SMap Nat := []) : State := { State.reset with toks := [(328, t)], hostLines := lines }
theorem witness_HostAgentAndWindows_reads : (∀ t, HostFree (aState t) 5) ∧ ((aState {}).hostLines.filter fun p => !isHostSec p.1).length < 2 ^ 20
    ∧ ((aState ⟨16, true, true, false, 0⟩).tok agentId 5).canWrite = true ∧ (aState ⟨16, true, true, false, 0⟩).agentActs 5 = false
    ∧ (((aState ⟨1, false, true, false, 0⟩).tok agentId 5).canRead = true ∧ ((aState ⟨1, false, true, false, 0⟩).tok agentId 5).owner = false
        ∧ ((aState ⟨1, false, true, false, 0⟩).tok agentId 5).canWrite = false)
    ∧ ((aState {}).tok agentId 5).canRead = false ∧ ((aState {}).tok agentId 5).canWrite = false ∧ (List.replicate 64 (7 : Byte)).length = 64 :=
  ⟨fun _ => ⟨rfl, rfl, by intro p hp; cases hp⟩, by decide, by decide, by decide, by decide, by decide, by decide, rfl⟩
def bMsg (k : MsgKind) (sec : Nat) : Msg := { blankMsg k sec 2 8 with msg := 6 }
theorem witness_HostAgentAndWindows_invalidates : (∃ s : State, (s.agentAnswers.filter fun x => x.sector = 5).find? (fun x => x.kind = .gets) = some (bMsg .gets 5)
      ∧ (∀ x ∈ s.agentAnswers, x.dst = agentId) ∧ (s.tok agentId 5).owner = true ∧ 2 ≤ (s.tok agentId 5).tokens ∧ s.shadows = [])
    ∧ (∃ s : State, s.agentAnswers.filter (fun x => x.sector = 5) = [bMsg .binv 5] ∧ (bMsg .binv 5).kind = .binv ∧ (∀ x ∈ s.agentAnswers, x.dst = agentId) ∧ s.shadows = [])
    -- BINV of a line that the host holds, and of one that it does not
    ∧ (∃ s : State, s.msgOf 6 .binv = some (bMsg .binv 5) ∧ s.needsRecall (bMsg .binv 5) = true) ∧ (∃ s : State, s.msgOf 6 .binv = some (bMsg .binv 5) ∧ s.needsRecall (bMsg .binv 5) = false)
    -- snoops of the first sector of host memory, with all tokens at the agent and with some elsewhere
    ∧ (∃ s : State, s.hostLines.get 0 (2 ^ 42) ≠ 0 ∧ s.recalls = [] ∧ (s.tok agentId (2 ^ 42)).tokens = 16 ∧ s.shadows = [])
    ∧ (∃ s : State, s.hostLines.get 0 (2 ^ 42) ≠ 0 ∧ s.recalls = [] ∧ (s.tok agentId (2 ^ 42)).tokens ≠ 16)
    -- an answer that a held message waits for
    ∧ ∃ s : State, HostFree s (2 ^ 42) ∧ (∃ m ∈ s.agentAnswers, m.sector = 2 ^ 42) ∧ (∀ x ∈ s.agentAnswers, x.dst = agentId) ∧ s.hostLines.get 0 (2 ^ 42) < 2
        ∧ s.ops = [] ∧ s.shadows = [] :=
  ⟨⟨{ State.reset with agentAnswers := [bMsg .gets 5], toks := [(328, ⟨2, true, true, false, 0⟩)] }, by decide, by decide, by decide, by decide, rfl⟩,
    ⟨{ State.reset with agentAnswers := [bMsg .binv 5] }, by decide, rfl, by decide, rfl⟩,
    ⟨{ State.reset with msgs := [bMsg .binv 5], hostLines := [(5, 1)] }, rfl, by decide⟩, ⟨{ State.reset with msgs := [bMsg .binv 5] }, rfl, by decide⟩,
    ⟨{ State.reset with hostLines := [(2 ^ 42, 2)] }, by decide, rfl, by decide, rfl⟩,
    ⟨{ State.reset with hostLines := [(2 ^ 42, 2)], toks := [(2 ^ 42 * 64 + 8, ⟨15, true, true, false, 0⟩)] }, by decide, rfl, by decide⟩,
    ⟨{ State.reset with agentAnswers := [bMsg .gets (2 ^ 42)] }, ⟨rfl, rfl, by intro p hp; cases hp⟩, ⟨_, List.mem_singleton.mpr rfl, rfl⟩, by decide, by decide, rfl, rfl⟩⟩
/-- The host link on some modules. -/
def linkUp (l : List Nat) : State := { State.reset with regs := { hostUp := true, ucie := l } }
theorem witness_HostAgentAndWindows_windows : (∃ s : State, (s.window 7).en = false ∧ (s.window 7).busy = false ∧ s.windowFault (s.window 7) 63 = 0)
    ∧ (∃ s : State, (s.window 7).en = false ∧ (s.window 7).busy = false ∧ s.windowFault (s.window 7) 63 ≠ 0)
    ∧ (∃ s : State, (s.window 7).en = true ∧ (s.window 7).busy = false) ∧ (∃ s : State, (s.window 7).busy = true ∧ (s.window 7).drains = [])
    ∧ (linkUp [0, 3]).regs.hostUp = true ∧ (linkUp [0, 3]).regs.ucie.filter (fun m => m ≠ 3) ≠ [] ∧ (linkUp [3]).regs.ucie.filter (fun m => m ≠ 3) = [] :=
  ⟨⟨{ State.reset with windows := [(7, { base := 0x10000, len := 65536, ctr := 8 })] }, by decide⟩, ⟨State.reset, by decide⟩,
    ⟨{ State.reset with windows := [(7, { en := true })] }, by decide⟩, ⟨{ State.reset with windows := [(7, { busy := true })] }, by decide⟩, rfl, by decide, by decide⟩

/-- Memory with a launch record at 0x10800 (tag 1, one gang of one workgroup, 1 to 4 groups of 96 registers, 16 KiB of local store, status at 0x10A00),
a program table at 0x7000 whose program 0 of 16 parcels lies at 0x20000, and shares for classes 0 and 1. -/
def lMem : SMap Byte := [(0x800, 1), (0x803, 1), (0x841, 0x70), (0x858, 1), (0x859, 1), (0x85E, 48), (0x1000, 1), (0x1003, 2), (0x2000, 0x3F), (0x7002, 2), (0x7008, 16),
  (0x700C, 1), (0x10800, 1), (0x10810, 5), (0x10811, 6), (0x10816, 12), (0x10817, 1), (0x10818, 64), (0x10820, 1), (0x10821, 4), (0x10822, 1), (0x10830, 1), (0x10834, 1),
  (0x10838, 1), (0x10849, 0x0A), (0x1084A, 1)]
def lCtx : Ctx where
  live := true
  quota := 0x800
  stackn := 8
  queues := [(0, { base := 0x10800, tail := 1, en := true })]
def lState (mem : SMap Byte := lMem) : State where
  __ := State.reset
  regs := { ready := true }
  mem := mem
  tags := [(0, 320)]
  ctxs := [(0, lCtx)]
  serial := 100

set_option maxRecDepth 100000 in
theorem witness_LaunchesAndPlacement_admit : (lState).nextQueue = some (0 * 4 + 0) ∧ (lState).badSectors = [] ∧ (lState).badSram = [] ∧ (lState).poisoned = [] ∧ (lState).shadows = []
    ∧ ({ lState with lqTurn := 1 } : State).rangeKinds 0 0x10800 128 reading = []
    -- a record that cannot be read
    ∧ (lState []).nextQueue = some (0 * 4 + 0) ∧ ({ lState [] with lqTurn := 1 } : State).rangeKinds 0 0x10800 128 reading ≠ [] := by decide
/-- The bytes of the record, and the state in which it is checked. -/
def lBytes (s : State) : List Byte := (State.rangePas (State.touchRange { s with lqTurn := 1 } 0 0x10800 128 reading) 0 0x10800 128 reading).map
  (State.touchRange { s with lqTurn := 1 } 0 0x10800 128 reading).merged
def lChecked (s : State) : State := (State.touchRange { s with lqTurn := 1 } 0 0x10800 128 reading).setQueue 0 0 { (Queued s 0 0) with head := 1 }
set_option maxRecDepth 100000 in
theorem witness_LaunchesAndPlacement_checks : (lChecked (lState)).reject 0 (lBytes (lState)) (recordOf (lBytes (lState))) = none := by decide
set_option maxRecDepth 100000 in
/-- A tag of 0. -/
theorem witness_LaunchesAndPlacement_reject : (lChecked (lState (lMem.erase 0x10800))).reject 0 (lBytes (lState (lMem.erase 0x10800)))
    (recordOf (lBytes (lState (lMem.erase 0x10800)))) = some 0 := by decide
theorem witness_LaunchesAndPlacement_registers : 4 ≤ (12 : BitVec 32).toNat % 16 ∧ (12 : BitVec 32).toNat % 16 ≤ 12 ∧ (3 : BitVec 32).toNat % 16 < 4 ∧ 12 < (13 : BitVec 32).toNat % 16 := by decide

/-- A consumer of the queue at 0x10040, which has one filled slot and dispatches one at a time. -/
def dMem : SMap Byte := [(0x800, 1), (0x803, 1), (0x1000, 1), (0x1003, 2), (0x2000, 0x3F), (0x10048, 0x80), (0x1004A, 1), (0x10050, 1), (0x10054, 6), (0x10056, 1), (0x1005C, 1),
  (0x10064, 1), (0x10068, 1), (0x10070, 0x80), (0x10080, 2)]
def consumer : Launch := { aLaunch with record := { aLaunch.record with tag := 1, inq := 0x10040, depth := 2, args := 0x11000 }, nextGang := 0, running := 0 }
set_option maxRecDepth 100000 in
theorem witness_LaunchesAndPlacement_dispatch : (lState dMem).queueAt 0 consumer.record.inq.toNat = some 0x10040 ∧ consumer.record.inq ≠ 0 ∧ consumer.parent = none
    ∧ consumer.holds = [] ∧ consumer.dead = false ∧ ((lState dMem).qdesc 0x10040).batch ≤ ((lState dMem).qdesc 0x10040).filled ∧ ((lState dMem).qdesc 0x10040).batch ≠ 0
    ∧ ((lState dMem).qdesc 0x10040).consumer = consumer.record.tag ∧ (lState dMem).badSectors = [] ∧ (lState dMem).badSram = []
    ∧ (∀ p ∈ ({ lState dMem with launches := [(9, consumer)] } : State).launches, p.2.parent ≠ some 9)
    ∧ (((List.range 1).map fun j => (0 + j) % 2 ^ 32).filterMap fun n => (lState dMem).filledSlot ((lState dMem).qdesc 0x10040) n).length = 1
    ∧ (((lState dMem).qdesc 0x10040).cmt + 2 ^ 32 - ((lState dMem).qdesc 0x10040).filled) % 2 ^ 32 = 0
    ∧ (lState dMem).rangeKinds 0 (0x11000 + (0 % 2) * blockBytes 1) (blockBytes 1) writing = [] := by decide
def overLaunch : Launch := { aLaunch with running := 0, ended := 1, record := { aLaunch.record with ext := [1, 1, 1], statva := 0x10A00 } }
set_option maxRecDepth 100000 in
theorem witness_LaunchesAndPlacement_complete : overLaunch.record.inq = 0 ∧ ({ lState with launches := [(9, overLaunch)] } : State).launchOver overLaunch = true
    ∧ ({ lState with launches := [(9, overLaunch)] } : State).rangeKinds 0 overLaunch.record.statva.toNat 8 writing = []
    ∧ (statusState { lState with launches := [(9, overLaunch)] } overLaunch).rangePas 0 overLaunch.record.statva.toNat 8 writing = fromN 0x10A00 8 := by decide

/-- A launch of class `k` whose gang waits for core 0, with its program there or not. -/
def waiting (k : Nat) : Launch := { aLaunch with record := { aLaunch.record with cls := k, ext := [1, 1, 1] }, nextGang := 0, running := 0 }
def placeState (l : List Resident) : State :=
  { lState with launches := [(9, waiting 0)], cores := [(0, { programs := l })], placing := some ⟨9, none, [0], [], 0, [], 0, none, 0⟩ }
set_option maxRecDepth 100000 in
theorem witness_LaunchesAndPlacement_place : (lState).chooseGang true = none ∧ stageDue (placeState []) ⟨9, none, [0], [], 0, [], 0, none, 0⟩ = some 2
    ∧ stageDue (placeState [⟨0, 0, 0x20000, 0, 16, 0⟩]) ⟨9, none, [0], [], 0, [], 0, none, 0⟩ = none
    ∧ (placeState []).leaving ⟨9, none, [0], [], 0, [], 0, none, 0⟩ = []
    ∧ State.hasBlocks { placeState [⟨0, 0, 0x20000, 0, 16, 0⟩] with placing := none } (waiting 0) = true
    ∧ State.canTake { placeState [⟨0, 0, 0x20000, 0, 16, 0⟩] with placing := none } (waiting 0) 0 = true := by decide
theorem witness_LaunchesAndPlacement_shrink : ∃ s : State, s.placing = some ⟨9, none, [0], [], 0, [], 0, some 100, 0⟩ ∧ 100 + 2600 ≤ s.now
    ∧ (State.withdraw { s with placing := none }).chooseGang false = none ∧ s.wgOf 0 0 = some { aWg with shrinkReq := true } ∧ aWg.emin < aWg.emax :=
  ⟨{ State.reset with placing := some ⟨9, none, [0], [], 0, [], 0, some 100, 0⟩, dies := [(0, { clk := 2700 })], cores := [(0, { aCore with wgs := [(0, { aWg with shrinkReq := true })] })] },
    rfl, by decide, by decide, rfl, by decide⟩

/-- A gang of class 1 was saved from core 0, where a workgroup of class 0 whose quantum has expired runs now. -/
def aImage : Image where
  ctx := 0
  core := 0
  cls := 1
  half := 0
  serial := 50
  groups := [(3, { gEnded with uid := 8, wg := 1 })]
  wgs := [(1, { aWg with uid := 3, gang := 7, launch := 10, cls := 1, base := 65536, size := 65536 })]
  accs := [(2, { scale := 1 })]
  weights := []
  perm := []
  tiles := []
  mqueue := []
  mseq := {}
  cseq := {}
def expWg : Workgroup := { aWg with quantum := 1, qcount := 1300 }
def savedCore : Core := { aCore with wgs := [(0, expWg)], programs := [⟨0, 0, 0x20000, 0, 16, 0⟩], slots := [(0, { image := some aImage })] }
def savedState : State where
  __ := lState
  cores := [(0, savedCore)]
  launches := [(9, { waiting 0 with nextGang := 1, running := 1 }), (10, { waiting 1 with launch := 10, nextGang := 1, running := 1 })]
  gangs := [(5, ⟨5, 9, 0, [], [0], false, 0⟩), (7, ⟨7, 10, 0, [], [0], true, 0⟩)]
set_option maxRecDepth 100000 in
theorem witness_LaunchesAndPlacement_quantum : savedState.wgOf 0 0 = some expWg ∧ expWg.quantum * 1300 ≤ expWg.qcount ∧ expWg.rank = 0 ∧ savedState.placing = none
    ∧ savedState.chooseGang true = some ⟨10, some 7, [0], [50], 0, [0], 0, none, 0⟩ ∧ 0 ∈ [0]
    ∧ ({ lState with cores := [(0, savedCore)] } : State).chooseGang true = none := by decide

/-- An empty core of a live context whose program is read into its first region; a full one must give up a program that nobody uses. -/
def switchState (k : Core) : State := { lState with cores := [(0, k)], launches := [(9, waiting 0), (10, { waiting 1 with launch := 10 })] }
def fullCore : Core := { programs := [⟨1, 0, 0, 0, 122880, 5⟩] }
set_option maxRecDepth 100000 in
theorem witness_ContextSwitch_load : ((switchState {}).badSectors = [] ∧ (switchState {}).badSram = [] ∧ (switchState {}).poisoned = []) ∧ ((switchState {}).ctx 0).live = true ∧ ({} : Core).resident 0 0 ((switchState {}).program 0 0) = none
    ∧ (switchState {}).shadows = [] ∧ (switchState {}).rangeKinds 0 ((switchState {}).program 0 0).va (2 * ((switchState {}).program 0 0).len) reading = []
    ∧ ({} : Core).makeRoom (ceilDiv ((switchState {}).program 0 0).len regionParcels) 4 [] = some (0, [])
    ∧ fullCore.makeRoom (ceilDiv ((switchState {}).program 0 0).len regionParcels) 4 fullCore.programs = some (0, []) := by decide
def haltedCore : Core := { aCore with groups := [(0, g0)], halted := true }
theorem witness_ContextSwitch_save : (aCore.runs 0 = true ∧ aCore.halted = false) ∧ haltedCore.halted = true ∧ haltedCore.ctx = some 0 ∧ haltedCore.freeSaveSlot = some 0
    ∧ ({ haltedCore with slots := [(0, { image := some aImage }), (1, { zeroed := false })] } : Core).freeSaveSlot = some 2
    -- a slot that is released, and one whose image may go to backing
    ∧ ({ haltedCore with slots := [(1, { zeroed := false })] } : Core).slots.look 1 = some { image := none, zeroed := false }
    ∧ (switchState savedCore).core 0 = savedCore ∧ savedCore.slots.look 0 = some { image := some aImage, zeroed := true } ∧ (switchState savedCore).backed aImage.ctx aImage.core = false
    ∧ (switchState savedCore).shadows = []
    -- a half whose owner does not run
    ∧ (∃ k : Core, k.halfOwner 1 = some 0 ∧ k.runs 0 = false ∧ SMap.get 0 k.ls (2 ^ 20) = 3) := by
  refine ⟨by decide, rfl, rfl, by decide, by decide, rfl, rfl, rfl, rfl, rfl, ⟨{ halves := [(1, { owner := some 0 })], ls := [(2 ^ 20, 3)] }, rfl, rfl, rfl⟩⟩
theorem witness_ContextSwitch_redirect : ∃ s : State, (s.core 0).halted = false ∧ (s.core 0).redirect = [.status 8 95 1 5] ∧ s.findUid 8 = none
    ∧ (s.core 0).slots.look 0 = some { image := some aImage, zeroed := true } ∧ aImage.groups.look 3 = some { gEnded with uid := 8, wg := 1 } :=
  ⟨switchState { slots := [(0, { image := some aImage })], redirect := [.status 8 95 1 5] }, rfl, rfl, rfl, rfl, rfl⟩
/-- The core of the image, with nothing on it and the program there. -/
def restoreState : State := switchState { programs := [⟨0, 0, 0x20000, 0, 16, 0⟩], slots := [(0, { image := some aImage })] }
set_option maxRecDepth 100000 in
theorem witness_ContextSwitch_restore : (restoreState.core 0).idle = true ∧ leastBy (fun im : Image => im.serial) (restoreState.restorable 0 0) = some aImage
    ∧ restoreState.halvesToEvict 0 0 = [] ∧ (∀ p ∈ aImage.wgs, (restoreState.residentFor 0 p.2).isSome = true)
    ∧ (restoreState.core 0).slots.look 0 = some { image := some aImage, zeroed := true } ∧ aImage.core = 0 ∧ aImage.mqueue = [] := by decide

/-- CTX_KILL and its end; the context-create registers; regions. -/
def regState (r : Regs) : State := { lState with regs := r }
theorem witness_ControlProcessor_kill : (lState).regs.killing = false ∧ (0x8000003F : BitVec 32).getLsbD 31 = true
    ∧ (regState { killing := true }).regs.killing = true ∧ (regState { killing := true }).regs.resetting = false ∧ (regState { killing := true }).shadows = []
    ∧ (regState { killing := true }).ctxWritesDone 0 (regState { killing := true }).serial = true ∧ (regState { killing := true }).windows = [] := by decide
/-- CX_CREATE with a quota record at 0x100000, which keeps its limits with 48 groups on a core and does not with none. -/
def cxState (groups : Byte) : State where
  __ := State.reset
  regs := { cxBusy := true, cxCtx := 63, cxQuota := 0x100000 }
  mem := [(0x10005E, groups)]
set_option maxRecDepth 20000 in
theorem witness_ControlProcessor_create : ((regState { cxBusy := true }).ctx 0).live = true ∧ ∀ n ∈ [(0 : Byte), 48], (cxState n).regs.cxBusy = true ∧ (cxState n).regs.cxOp = 0
    ∧ ((cxState n).ctx 63).live = false ∧ (cxState n).regs.killing = false ∧ (0x100000 : BitVec 48).toNat % 256 = 0 ∧ (cxState n).inDevice (0x100000 : BitVec 48).toNat 256 = true
    ∧ (cxState n).frameTagged (0x100000 : BitVec 48).toNat = false := by decide
set_option maxRecDepth 100000 in
theorem witness_ControlProcessor_limits : (cxState 48).quotaOk 0x100000 = true := by decide
set_option maxRecDepth 100000 in
theorem witness_ControlProcessor_outside : (cxState 0).quotaOk 0x100000 = false := by decide
/-- The stack of context 0: one block at 0x20000, whose frame is tagged. -/
def stackState : State where
  __ := lState [(0x862, 2), (0x868, 1)]
  regs := { cxBusy := true, cxOp := 1 }
  tags := [(2, 64)]
set_option maxRecDepth 100000 in
theorem witness_ControlProcessor_stack : (stackState.ctx 0).live = true ∧ stackState.hasWork 0 = false ∧ stackState.stackB 0 = 0x20000 ∧ stackState.quota 0 0x68 4 = 1
    ∧ (∀ i ∈ List.range (ceilDiv (stackState.quota 0 0x68 4 * stackState.blockSize 0) 65536), stackState.tagNames (stackState.stackB 0 + i * 65536) 0 0 = true) := by decide
set_option maxRecDepth 100000 in
theorem witness_ControlProcessor_regions : (regState { faBusy := true, faSize := 3 }).faCheck = some 5 ∧ (regState { faBusy := true, faDpa := 1 }).faCheck = some 1
    ∧ (∀ s ∈ [regState { faBusy := true, faDpa := 0x20000 }], s.faCheck = none ∧ s.regs.faRel = false ∧ s.regs.faZeroing = false ∧ (s.ctx 0).live = true
        ∧ ∀ p ∈ s.tags, 0x20000 / 65536 ≤ p.1 → p.1 < 0x20000 / 65536 + regionBytes 0 / 65536 → p.2.toNat / 64 % 2 = 0)
    ∧ (regState { faBusy := true, faDpa := 0x20000, faZeroing := true }).regs.faZeroing = true
    ∧ (regState { faBusy := true, faDpa := 0x20000, faZeroing := true }).hostHeld 0x20000 (regionBytes 0) = []
    ∧ ∀ s ∈ [({ regState { faBusy := true, faDpa := 0x20000, faRel := true } with tags := [(2, 64)], ctxs := [(0, { live := true })] } : State)], s.faCheck = none
        ∧ s.accessesDone 0 s.serial = true ∧ (∀ p ∈ s.members, p.2.exchange = true → p.2.stage ≠ .running)
        ∧ s.regionTags 0x20000 0 (fun x => decide (x = some (ownerTag 0 0))) = true ∧ (∀ p ∈ s.ctxs, p.2.stackn = 0) ∧ (s.ctx 0).live = true := by decide

theorem witness_ControlProcessor_registers : 8 ≤ (lState).regs.erSize ∧ (lState).regs.erSize ≤ 14 ∧ (lState).inDevice 0xFFC0 64 = true ∧ (lState).frameTagged 0xFFC0 = true
    ∧ (regState { bootStep := 15, bootFail := 255 }).regs.bootStep < 16 ∧ (regState { bootStep := 15, bootFail := 255 }).regs.bootFail < 256 := by decide

/-- The record of a communicator of two members at 0x10C00, with its sequence words at 0x10D00. -/
def oMem : SMap Byte := [(0x800, 1), (0x803, 1), (0x1000, 1), (0x1003, 2), (0x2000, 0x3F), (0x10C00, 3), (0x10C04, 2), (0x10C0C, 2), (0x10C19, 0x0D), (0x10C1A, 1)]
def oState (val : Dword) : State := { lState oMem with regs := { commOpen := val } }
set_option maxRecDepth 100000 in
theorem witness_ControlProcessor_open : ((oState 0x10C01).ctx 1).live = false ∧ (oState 0x10C00).regs.commBusy = false ∧ ((oState 0x10C00).ctx 0).live = true
    ∧ (0x10C00 : Dword).toNat % 64 = 0 ∧ (0x10C00 : Dword).toNat / 64 * 64 = 0x10C00
    ∧ (oState 0x10C00).rangeKinds 0 0x10C00 64 reading = [] ∧ leafBit ((oState 0x10C00).engineRes 0 0x10C00 reading).leaf 7 = false
    ∧ (∀ b ∈ [((oState 0x10C00).rangePas 0 0x10C00 64 reading).map (oState 0x10C00).merged], commOk b = true ∧ field b 2 1 = 0
        ∧ (oState 0x10C00).rangeKinds 0 (field b 0x18 8) (4 * (field b 0x0C 4 - field b 8 4)) both = [] ∧ ((oState 0x10C00).ctx 0).comms.look (field b 0 2) = none
        ∧ ((oState 0x10C00).ctx 0).comms.length < 256)
    -- a close with no member left
    ∧ ((cState []).commOf 0 ((3 * 64 : Dword).toNat / 64 % 65536)).isSome = true ∧ (cState []).members = [] := by decide

/-- A peer port: down; up without keys; up with keys; with a flit kept, once replayed and seven times. -/
def portState (x : Port) (clk : Nat := 0) : State := { State.reset with ports := [(3, x)], dies := [(0, { clk := clk })] }
def upPort : Port where
  up := true
  en := true
  enc := true
  txKeys := [(0, ⟨[1], [2]⟩), (1, ⟨[3], [4]⟩)]
  rxKeys := [(0, ⟨[5], [6]⟩)]
  nextSeq := 4095
  expected := 4095
/-- A flit kept, as sent with a number. -/
def keptFlit (seq replays : Nat) : Flit := ⟨{ seq := seq, typ := 1 }, [], [], replays⟩
theorem witness_PeerPorts : Fits { seq := 4095, ack := 4095, kidx := 1, typ := 15, vc := 3, ctr := 2 ^ 48 - 1, dpkg := 65535 } ∧ (∀ x n, (portState x n).port 3 = x)
    ∧ ({} : Port).en = false ∧ (({ en := true, training := true } : Port).en = true ∧ ({ en := true, training := true } : Port).training = true) ∧ ({ en := true } : Port).training = false
    ∧ upPort.waiting = [] ∧ upPort.up = true ∧ Free upPort
    -- in order, and each way of not being so
    ∧ (headerOf 0).typ < 5 ∧ InOrder upPort { headerOf 0 with seq := 4095, kidx := 0 } ∧ InOrder upPort { headerOf 0 with seq := 4095 }
    ∧ 4094 ≠ upPort.expected ∧ upPort.rxKeys.look 1 = none ∧ 5 ≤ (headerOf (5 * 2 ^ 26)).typ ∧ (headerOf (3 * 2 ^ 30)).vc = 3
    ∧ ({ upPort with naked := true } : Port).naked = true ∧ ({ up := true } : Port).enc = false ∧ upPort.naked = false ∧ upPort.enc = true
    -- a NAK of 4093, and an idle flit that acks it
    ∧ (2 ^ 128 + 4093 * 2 ^ 12 + 4095) / 2 ^ 128 % 2 = 1 ∧ InOrder upPort (headerOf (2 ^ 128 + 4093 * 2 ^ 12 + 4095))
    ∧ (∀ f ∈ ({ upPort with buffer := [keptFlit 4094 6] } : Port).buffer, f.replays < 7)
    ∧ (∃ f ∈ ({ upPort with buffer := [keptFlit 4094 7] } : Port).buffer, covered (headerOf (2 ^ 128 + 4093 * 2 ^ 12 + 4095)).ack f.head.seq = false ∧ 7 ≤ f.replays)
    ∧ ((headerOf (2 ^ 128 + 2 ^ 24 + 4093 * 2 ^ 12 + 4095)).seq = upPort.expected ∧ (headerOf (2 ^ 128 + 2 ^ 24 + 4093 * 2 ^ 12 + 4095)).ackv = true
        ∧ (headerOf (2 ^ 128 + 2 ^ 24 + 4093 * 2 ^ 12 + 4095)).vc ≠ 3
        ∧ (upPort.rxKeys.look (headerOf (2 ^ 128 + 2 ^ 24 + 4093 * 2 ^ 12 + 4095)).kidx).isSome = true) ∧ upPort.lastOld = none ∧ upPort.roll = false :=
  ⟨by unfold Fits; decide, fun _ _ => rfl, rfl, ⟨rfl, rfl⟩, rfl, rfl, rfl, ⟨rfl, rfl, by decide⟩, by decide, ⟨rfl, by decide, rfl, by decide⟩, ⟨rfl, by decide, rfl, by decide⟩,
    by decide, rfl, by decide, by decide, rfl, rfl, rfl, rfl, by decide, ⟨by decide, by decide, by decide, by decide⟩, by decide,
    ⟨keptFlit 4094 7, by decide, by decide, by decide⟩, by decide, rfl, rfl⟩
/-- A flit of a key exchange: the first, of this side's rollover, and of the peer's. -/
def keyFlit : List Byte := toBytes 16 4095 ++ List.replicate 240 0
set_option maxRecDepth 20000 in
theorem witness_PeerPorts_keys : keyFlit.length = 256 ∧ (headerOf (ofBytes (keyFlit.take 16))).seq = 4095 ∧ (headerOf (ofBytes (keyFlit.take 16))).vc ≠ 3
    ∧ (headerOf (ofBytes (keyFlit.take 16))).ackv = false
    ∧ (∀ r ∈ [KeyRun.first, .own, .peer, .idle], ∃ x : Port, Free x ∧ x.keyRun = r ∧ x.expected = 4095 ∧ x.lastOld = none ∧ x.roll = decide (x.keyRun = .own)
        ∧ x.rollAgain = false ∧ x.kidx < 2 ∧ x.enc = decide (x.keyRun ≠ .first))
    -- a rollover, asked for and by the counter; silence, and the last lane
    ∧ upPort.keyRun = .idle ∧ 2 ^ 47 ≤ ({ upPort with ctr := 2 ^ 47 } : Port).ctr ∧ upPort.heard + 2600 ≤ (portState upPort 2600).now ∧ 3 < 4 := by
  refine ⟨by decide, by decide, by decide, by decide, ?_, rfl, by decide, by decide, by decide⟩
  intro r _
  exact ⟨{ upPort with keyRun := r, enc := decide (r ≠ .first), roll := decide (r = .own) }, ⟨rfl, rfl, by show (0 : Nat) < 256; decide⟩, rfl, rfl, rfl, rfl, rfl, by show (0 : Nat) < 2; decide, rfl⟩

theorem witness_ModuleServices : (regState { bootStep := 4 }).regs.bootStep = 4 ∧ (regState { bootStep := 5 }).regs.bootStep = 5 ∧ (regState { bootStep := 7 }).regs.bootStep = 7
    ∧ (∃ s : State, s.regs.killing = false ∧ ∀ p ∈ s.ctxs, p.2.live = false) ∧ (∃ s : State, s.regs.killing = false ∧ ∃ p ∈ s.ctxs, p.2.live = true)
    ∧ (regState { emerg := 0x80 }).regs.emerg.getLsbD 7 = true ∧ (regState { emerg := 0x80 }).regs.emerg.getLsbD 0 = false
    ∧ ((regState { alarm := 0xFF, emerg := 1 }).regs.alarm = BitVec.allOnes 8 ∧ (regState { alarm := 0xFF, emerg := 1 }).regs.emerg ≠ 0)
    ∧ (400 : BitVec 32).toNat % 65536 = 400 ∧ (900 : BitVec 32).toNat % 65536 ≤ 900 ∧ (399 : BitVec 32).toNat % 65536 < 400 ∧ 900 < (901 : BitVec 32).toNat % 65536
    ∧ (0xE0 ≤ (0xE0 : BitVec 8).toNat ∧ (0xEC : BitVec 8).toNat ≤ 0xEC) ∧ Issues (onCore aCore g0) (issuer g0) ∧ g0.sup = false ∧ (onSeq aCore true).cur = some (.seq 0 true)
    -- the error ring full and not
    ∧ ((regState { erTail := 256 }).regs.erTail - (regState { erTail := 256 }).regs.erHead).toNat = 2 ^ (regState { erTail := 256 }).regs.erSize
    ∧ ((regState { erTail := 255 }).regs.erTail - (regState { erTail := 255 }).regs.erHead).toNat ≠ 2 ^ (regState { erTail := 255 }).regs.erSize
    -- Q before and after the first context; a die above its share once more and below it for the hundredth time; and a sequencer that runs
    ∧ State.reset.regs.qHeld = false ∧ (regState { qHeld := true }).regs.qHeld = true
    ∧ (∃ (s : State) (w : Nat), s.regs.above 7 w 1 1 = true ∧ 1 ≤ (s.die 7).overs ∧ [0, 0, 0, 0, 0, 0, 0, w][7]? = some w)
    ∧ (∃ s : State, s.regs.above 7 0 9 10 = false ∧ 99 ≤ (s.die 7).unders)
    ∧ ((onSeq { aCore with cseq := { run := .running } } true).cur = some (.seq 0 true) ∧ (((onSeq { aCore with cseq := { run := .running } } true).core 0).seqOf true).run = .running) :=
  ⟨rfl, rfl, rfl, ⟨State.reset, rfl, by intro p hp; cases hp⟩, ⟨lState, rfl, (0, lCtx), by simp [lState], rfl⟩, by decide, by decide, ⟨by decide, by decide⟩, by decide, by decide, by decide, by decide,
    ⟨by decide, by decide⟩, issues _ _ rfl, rfl, rfl, by decide, by decide, rfl, rfl,
    ⟨{ State.reset with dies := [(7, { overs := 1 })] }, 10000, by decide, by decide, rfl⟩, ⟨{ State.reset with dies := [(7, { unders := 99 })] }, by decide, by decide⟩, rfl, rfl⟩
/-- The watchdog a clk before its period is over, and at its end. -/
def watched (clk : Nat) : State := { onCore { aCore with progress := 7 } g0 with dies := [(0, { clk := clk })] }
theorem witness_ModuleServices_watchdog : State.reset.regs.wdPeriod ≠ 0 ∧ (watched 130000006).clkOf 0 < ((watched 130000006).core 0).progress + (watched 0).regs.wdPeriod.toNat * 1300000
    ∧ ((watched 130000007).core 0).progress + (watched 130000007).regs.wdPeriod.toNat * 1300000 ≤ (watched 130000007).clkOf 0
    ∧ ((watched 130000007).core 0).ctx = some 0 ∧ ((watched 130000007).core 0).runs 0 = true := by decide
/-- A boot whose bundle is too short; the check that a bundle passes is the free signature check's to decide. -/
theorem witness_ModuleServices_bundle : ∃ n, (regState { bootStep := 5, bootLen := 1 }).regs.bundleFails = some n := ⟨_, rfl⟩

end Sys2Proof.Tests
end

section
/-! PROOFS. The bookkeeping of splits at the end of an issue (R11, R25 to R27): where the issuing split then stands, and whether the
group is parked; and the answers that several instructions share. -/

namespace Sys2Proof.SMap

variable {α : Type}

theorem mem_of_look {m : SMap α} {k : Nat} {v : α} (h : look m k = some v) : (k, v) ∈ m := by
  induction m with
  | nil => cases h
  | cons p t ih =>
    obtain ⟨a, w⟩ := p
    simp only [look] at h
    split at h
    · cases h; subst a; exact List.mem_cons_self
    · exact List.mem_cons_of_mem _ (ih h)

theorem mem_put_self (m : SMap α) (k : Nat) (v : α) : (k, v) ∈ put m k v := mem_of_look (look_put_self m k v)

/-- Writing a key loses no entry but the one that was read at the key. -/
theorem mem_put_of_mem {m : SMap α} {p : Nat × α} (hp : p ∈ m) (k : Nat) (v : α) :
    p ∈ put m k v ∨ p.1 = k ∧ look m k = some p.2 := by
  induction m with
  | nil => cases hp
  | cons q t ih =>
    obtain ⟨a, w⟩ := q
    by_cases hlt : k < a
    · exact .inl (by simp [put, hlt, hp])
    by_cases heq : k = a
    · subst heq
      rcases List.mem_cons.mp hp with rfl | ht
      · exact .inr ⟨rfl, by simp [look]⟩
      · exact .inl (by simp [put, ht])
    · have hput : put ((a, w) :: t) k v = (a, w) :: put t k v := by simp [put, hlt, heq]
      have hlook : look ((a, w) :: t) k = look t k := by simp [look, Ne.symm heq]
      rw [hput, hlook]
      rcases List.mem_cons.mp hp with rfl | ht
      · exact .inl List.mem_cons_self
      · exact (ih ht).imp_left (List.mem_cons_of_mem _)

/-- Writing a key that is not listed loses no entry. -/
theorem mem_put_of_not_mem_keys {m : SMap α} {p : Nat × α} (hp : p ∈ m) {k : Nat} (hk : k ∉ m.keys) (v : α) : p ∈ put m k v :=
  (mem_put_of_mem hp k v).resolve_right fun h => hk (h.1 ▸ List.mem_map_of_mem hp)

theorem look_mapVals (m : SMap α) (f : Nat → α → α) (k : Nat) : look (mapVals m f) k = (look m k).map (f k) := by
  induction m with
  | nil => rfl
  | cons p t ih =>
    obtain ⟨a, w⟩ := p
    by_cases h : a = k
    · subst h; simp [mapVals, look]
    · simpa [mapVals, look, h] using ih

end Sys2Proof.SMap

namespace Sys2Proof.Machine

/-- What every application of a change keeps, its repetition keeps. -/
theorem iter_keeps {α : Type} {P : α → Prop} {f : α → α} (hf : ∀ x, P x → P (f x)) (n : Nat) (x : α) (hx : P x) : P (iter f n x) := by
  induction n generalizing x with
  | zero => exact hx
  | succ n ih => exact ih (f x) (hf x hx)

theorem not_mem_of_lowestFree {n i : Nat} {used : List Nat} (h : lowestFree n used = some i) : i ∉ used := by
  simpa using List.find?_some h

/-! ### The issuing split -/

/-- R25: the issuing split once its issue slot is counted and its PC has moved on. -/
theorem Group.look_goto_tick {g : Group} {k : Nat} {sp : Split} (h : g.slots.look k = some sp) (pc : Pc) :
    ((g.tick (some k)).goto k pc).slots.look k
      = some { sp with pc := pc, age := 0, fresh := false, wait := .none, waitMark := false } := by
  have htick : (g.tick (some k)).slots.look k = some { sp with age := 0, fresh := false, wait := .none, waitMark := false } := by
    simp [Group.tick, SMap.look_mapVals, h]
  simp only [Group.goto, htick, SMap.look_put_self]

theorem Group.advance_splitsOnly (g : Group) (k : Nat) (pc : Pc) : g.SplitsOnly ((g.tick (some k)).goto k pc) :=
  (g.tick_splitsOnly (some k)).trans (Group.goto_splitsOnly _ k pc)

theorem State.iss_some {s : State} {c g k : Nat} {I : Iss} (h : s.iss c g k = some I) :
    s.grp c g = some I.gr ∧ I.gr.slots.look k = some I.sp := by
  unfold State.iss at h
  split at h
  · cases h
  · rename_i hgr
    split at h
    · cases h
    · rename_i hsp
      cases h
      exact ⟨hgr, hsp⟩

theorem Group.pc_eq_of_samePlace {g : Group} {a b : Split} (h : g.samePlace a b = true) : a.pc = b.pc := by
  simp only [Group.samePlace, Bool.and_eq_true, decide_eq_true_eq] at h
  exact h.1.1

/-! ### Parking (R11, R155) -/

@[simp] theorem Group.goto_park (g : Group) (i : Nat) (pc : Pc) : (g.goto i pc).park = g.park := by
  unfold Group.goto
  split <;> rfl

theorem Group.mergeSlots_park (g : Group) (i j : Nat) : (g.mergeSlots i j).park = g.park := by
  unfold Group.mergeSlots
  split
  · split <;> rfl
  · rfl

theorem Group.mergeAll_park (g : Group) : g.mergeAll.park = g.park := by
  simp [Group.mergeAll, Group.mergeSlots_park]

theorem Group.reload1_park (g : Group) : g.reload1.park = g.park := by
  unfold Group.reload1
  split
  · exact Group.mergeAll_park _
  · rfl

/-- R26: merging and reloading park no group and end no park. -/
@[simp] theorem Group.settle_park (g : Group) : g.settle.park = g.park := by
  unfold Group.settle
  dsimp only
  split
  · exact g.mergeAll_park
  · exact iter_keeps (P := fun x : Group => x.park = g.park) (fun x hx => x.reload1_park.trans hx) 28 _ g.mergeAll_park

theorem Group.mark_false (g : Group) : g.mark false = g := by simp [Group.mark]

theorem Group.retire_false_park (g : Group) (k : Nat) (pc : Pc) : (g.retire k pc false).park = g.park := by
  simp [Group.retire, Group.mark_false]

theorem Group.meetsRecord_of_deferred_nil {g : Group} (h : g.deferred = []) : g.meetsRecord = false := by
  simp [Group.meetsRecord, h]

/-- R155: outside the handler a deferred record is taken by a split that holds a lane of its set. -/
theorem Group.meetsRecord_of_slot {g : Group} (hsup : g.sup = false) {k : Nat} {x : Split} (hx : g.slots.look k = some x)
    {r : Deferred} (hr : r ∈ g.deferred) {p : Nat × Dword} (hp : p ∈ r.lanes) (hL : x.mask.getLsbD p.1 = true) :
    g.meetsRecord = true := by
  simp only [Group.meetsRecord, hsup, Bool.not_false, Bool.true_and, List.any_eq_true, Bool.or_eq_true]
  exact ⟨r, hr, p, hp, .inl ⟨(k, x), SMap.mem_of_look hx, hL⟩⟩

/-- R11, R155: at the end of an issue a marker parks a group that runs, while something is pending and no deferred cause can be taken. -/
theorem Group.retire_true_park (g : Group) (k : Nat) (pc : Pc) (hrun : g.park = .run) :
    (g.retire k pc true).park
      = if g.pend ≠ [] ∧ ((g.tick (some k)).goto k pc).meetsRecord = false then .marker else .run := by
  have hpend : ((g.tick (some k)).goto k pc).pend = g.pend := by rw [(g.advance_splitsOnly k pc).eq]
  have hpark : ((g.tick (some k)).goto k pc).park = .run := by simp [hrun]
  simp only [Group.retire, Group.settle_park, Group.mark, hpend, hpark]
  by_cases hp : g.pend = []
  · simp [hp, hrun]
  · by_cases hm : ((g.tick (some k)).goto k pc).meetsRecord = true
    · simp [hm, hrun]
    · simp [hp, hm]

/-- R11: at the end of an issue a marker parks a group without deferred causes exactly while something is pending. -/
theorem Group.retire_true_park_of_deferred_nil {g : Group} (hrun : g.park = .run) (hnone : g.deferred = []) (k : Nat) (pc : Pc) :
    (g.retire k pc true).park = if g.pend = [] then .run else .marker := by
  have hadv := g.advance_splitsOnly k pc
  have hmeets := Group.meetsRecord_of_deferred_nil (g := (g.tick (some k)).goto k pc) (by rw [hadv.eq]; exact hnone)
  rw [g.retire_true_park k pc hrun, hmeets]
  by_cases hp : g.pend = [] <;> simp [hp]

/-- R155: it does not park a group in user mode whose issuing split has a deferred cause to take. -/
theorem Group.retire_true_park_of_deferred {g : Group} (hrun : g.park = .run) (hsup : g.sup = false) {k : Nat} {x : Split}
    (hx : g.slots.look k = some x) {r : Deferred} (hr : r ∈ g.deferred) {p : Nat × Dword} (hp : p ∈ r.lanes)
    (hL : x.mask.getLsbD p.1 = true) (pc : Pc) : (g.retire k pc true).park = .run := by
  have hadv := g.advance_splitsOnly k pc
  have hmeets := Group.meetsRecord_of_slot (g := (g.tick (some k)).goto k pc) (by rw [hadv.eq]; exact hsup)
    (Group.look_goto_tick hx pc) (by rw [hadv.eq]; exact hr) hp hL
  simp [g.retire_true_park k pc hrun, hmeets]

/-! ### Operands (R10, R88) -/

@[simp] theorem Group.check_nil (g : Group) : g.check false [] = none := rfl

/-- R10, R88: a pending operand gives cause 0x03 where nothing of a lower cause is wrong. -/
theorem Group.check_pending {g : Group} {sup : Bool} {ops : List Opd} (hal : ∀ o ∈ ops, Opd.aligned o = true)
    (hsup : sup = true → g.sup = true) {o : Opd} (ho : o ∈ ops) (hp : Opd.pending g o = true) : g.check sup ops = some 0x03 := by
  have h02 : ¬ (ops.any fun o => !o.aligned) = true := by simpa using hal
  have h05 : ¬ (sup && !g.sup) = true := by simpa using hsup
  have h03 : (ops.any fun o => Opd.pending g o) = true := List.any_eq_true.mpr ⟨o, ho, hp⟩
  simp only [Group.check, if_neg h02, if_neg h05, if_pos h03]

/-- R9: a single register is pending where its flag is set. -/
theorem Opd.pending_one (g : Group) (r : Nat) : Opd.pending g (r, 1) = true ↔ r ∈ g.pend := by
  simp [Opd.pending, fromN]

end Sys2Proof.Machine

namespace Sys2Proof.Claims

open Machine Host

/-! ### Where a split stands -/

theorem and_not_or_eq_zero_left {w : Nat} {m a : BitVec w} (h : m &&& ~~~ a = 0) (b : BitVec w) : m &&& ~~~ (a ||| b) = 0 := by
  rw [BitVec.not_or, ← BitVec.and_assoc, h]
  exact BitVec.zero_and

theorem and_not_or_eq_zero_right {w : Nat} {m b : BitVec w} (h : m &&& ~~~ b = 0) (a : BitVec w) : m &&& ~~~ (a ||| b) = 0 :=
  BitVec.or_comm a b ▸ and_not_or_eq_zero_left h a

theorem standsAt_of_slot {g : Group} {k : Nat} {x : Split} (hx : g.slots.look k = some x) : StandsAt g x.pc x.mask :=
  ⟨x, .inl (List.mem_map_of_mem (SMap.mem_of_look hx)), rfl, by simp⟩

/-- R26, R297: a split that merges still stands at its PC, in the merged split. -/
theorem StandsAt.mergeSlots {g : Group} {pc : Pc} {mask : Mask} (h : StandsAt g pc mask) {i j : Nat} (hij : i ≠ j) :
    StandsAt (g.mergeSlots i j) pc mask := by
  unfold Group.mergeSlots
  split
  case h_2 => exact h
  case h_1 a b ha hb =>
    split
    case isFalse => exact h
    case isTrue hc =>
      simp only [Bool.and_eq_true] at hc
      obtain ⟨⟨⟨⟨⟨hplace, -⟩, -⟩, -⟩, -⟩, -⟩ := hc
      obtain ⟨x, hx | hx, rfl, hm⟩ := h
      case inr => exact ⟨x, .inr hx, rfl, hm⟩
      obtain ⟨⟨q, x⟩, hq, rfl⟩ := List.mem_map.mp hx
      -- the merged split, which stands in the lower slot
      have merged (hpc : a.pc = x.pc) (hm : mask &&& ~~~ (a.mask ||| b.mask) = 0) :
          StandsAt { g with slots := (g.slots.put i (a.merge b)).filter fun p => decide (p ≠ (j, b)) } x.pc mask :=
        ⟨a.merge b, .inl (List.mem_map_of_mem (a := (i, a.merge b)) (List.mem_filter.mpr ⟨SMap.mem_put_self .., by simp [hij]⟩)), hpc, hm⟩
      rcases SMap.mem_put_of_mem hq i (a.merge b) with hin | ⟨-, hlook⟩
      · by_cases hjb : (q, x) = (j, b)
        · cases hjb
          exact merged (Group.pc_eq_of_samePlace hplace) (and_not_or_eq_zero_right hm _)
        · exact ⟨x, .inl (List.mem_map_of_mem (a := (q, x)) (List.mem_filter.mpr ⟨hin, decide_eq_true hjb⟩)), rfl, hm⟩
      · cases ha.symm.trans hlook
        exact merged rfl (and_not_or_eq_zero_left hm _)

theorem StandsAt.mergeAll {g : Group} {pc : Pc} {mask : Mask} (h : StandsAt g pc mask) : StandsAt g.mergeAll pc mask := by
  have go (l : List (Nat × Nat)) (hl : ∀ p ∈ l, p.1 ≠ p.2) (g : Group) (h : StandsAt g pc mask) :
      StandsAt (l.foldl (fun g p => g.mergeSlots p.1 p.2) g) pc mask := by
    induction l generalizing g with
    | nil => exact h
    | cons p t ih =>
      exact ih (fun q hq => hl q (List.mem_cons_of_mem _ hq)) _ (h.mergeSlots (hl p List.mem_cons_self))
  exact go _ (by decide) g h

/-- R26, R297: a reload moves a split from its record to a free slot, and every other split stays. -/
theorem StandsAt.reload1 {g : Group} {pc : Pc} {mask : Mask} (h : StandsAt g pc mask) : StandsAt g.reload1 pc mask := by
  unfold Group.reload1
  split
  case h_2 => exact h
  case h_1 i r hi hr =>
    apply StandsAt.mergeAll
    obtain ⟨x, hx | hx, hpc, hm⟩ := h
    · obtain ⟨p, hp, rfl⟩ := List.mem_map.mp hx
      exact ⟨p.2, .inl (List.mem_map_of_mem (SMap.mem_put_of_not_mem_keys hp (not_mem_of_lowestFree hi) r)), hpc, hm⟩
    · by_cases hxr : x = r
      · exact ⟨x, .inl (List.mem_map_of_mem (a := (i, x)) (hxr ▸ SMap.mem_put_self ..)), hpc, hm⟩
      · exact ⟨x, .inr (List.mem_filter.mpr ⟨hx, by simpa using hxr⟩), hpc, hm⟩

theorem StandsAt.settle {g : Group} {pc : Pc} {mask : Mask} (h : StandsAt g pc mask) : StandsAt g.settle pc mask := by
  unfold Group.settle
  dsimp only
  split
  · exact h.mergeAll
  · exact iter_keeps (P := fun x => StandsAt x pc mask) (fun _ hx => hx.reload1) 28 _ h.mergeAll

theorem StandsAt.mark {g : Group} {pc : Pc} {mask : Mask} (h : StandsAt g pc mask) (m : Bool) : StandsAt (g.mark m) pc mask := by
  unfold Group.mark
  split <;> exact h

/-- R26: at the end of an issue the issuing split stands at its new PC. -/
theorem standsAt_retire {g : Group} {k : Nat} {sp : Split} (h : g.slots.look k = some sp) (pc : Pc) (m : Bool) :
    StandsAt (g.retire k pc m) pc sp.mask :=
  ((standsAt_of_slot (Group.look_goto_tick h pc)).mark m).settle

/-! ### What an issue leaves alone -/

theorem sameMem_setGrp (s : State) (c g : Nat) (x : Group) : SameMem s (s.setGrp c g x) :=
  ⟨fun _ _ => rfl, fun j o => by rw [State.ls_setGrp]⟩

theorem kept_refl (g : Group) : Kept g g := by simp [Kept]

theorem Kept.splitsOnly {g x y : Group} (h : Kept g x) (hxy : x.SplitsOnly y) : Kept g y := by
  rw [hxy.eq]
  exact h

/-- The registers, the predicates and `stat.sat` after the end of an issue. -/
theorem retire_same (g : Group) (k : Nat) (pc : Pc) (m : Bool) :
    SameRegs g (g.retire k pc m) ∧ SamePreds g (g.retire k pc m) ∧ (g.retire k pc m).sat = g.sat := by
  obtain ⟨hv, hs, hp, -, hsat, -⟩ := (g.retire_splitsOnly k pc m).keeps
  exact ⟨⟨hv, hs⟩, hp, hsat⟩

/-- An instruction that ends with its group changed runs, where the change keeps the group's special state. -/
theorem runs_of_done {i : Instr} {s : State} {I : Iss} {G : Group} {n : Nat} {m : Bool} {P : Group → Prop}
    (hex : exec i s = .next (I.done s G n m)) (hk : Kept I.gr G) (hP : P (G.retire I.k (I.sp.pc + BitVec.ofNat 17 n) m)) :
    Runs i s I P :=
  ⟨_, _, hex, I.done_eq s G n m, sameMem_setGrp .., hk.splitsOnly (Group.retire_splitsOnly ..), hP⟩

/-! ### Causes (R152) -/

/-- R152: in user mode a cause of the whole split waits while something is pending. -/
theorem trapped_of_pending {s : State} {I : Iss} (hI : Issues s I) (hsup : I.gr.sup = false) (hpend : I.gr.pend ≠ [])
    (cause : BitVec 8) : Trapped (I.trap s cause) I cause I.sp.mask I.sp.pc false := by
  have hgrp : s.grp I.c I.g = some I.gr := (State.iss_some hI.2).1
  obtain ⟨-, -, -, hp, -, hs, -⟩ := (I.gr.advance_splitsOnly I.k I.sp.pc).keeps
  refine ⟨{ (I.gr.tick (some I.k)).goto I.k I.sp.pc with
    trapPend := some ⟨cause, I.sp.mask, [], I.sp.pc, false, I.k⟩, park := .run }, ?_, fun h => absurd h hpend,
    fun _ => ⟨hs.trans hsup, _, rfl, rfl, rfl, rfl, rfl⟩⟩
  simp [Iss.trap, State.raise_cases _ _ _ _ _ _ _ _ _ _ hgrp, hsup, hp, hpend, State.grp_setGrp]

end Sys2Proof.Claims
end

section
/-! PROOFS. NOP, the marker NOP and NOP32 (R72, R151). -/

namespace Sys2Proof.Claims

open Machine Host

theorem exec_nop (s : State) : exec .nop s = lane 1 false [] (fun g _ => g) s := rfl
theorem exec_nopMarker (s : State) : exec .nopMarker s = lane 1 true [] (fun g _ => g) s := rfl
theorem exec_nop32 (m : Bool) (s : State) : exec (.nop32 m) s = lane 2 m [] (fun g _ => g) s := rfl
theorem exec_or (m : Bool) (b a d : BitVec 7) (s : State) : exec (.or m b a d) s = lane2 2 m d.toNat a.toNat b.toNat (· ||| ·) s := rfl

/-- R72: an instruction without operands and without an effect ends its issue, whatever is pending. -/
theorem runs_of_noEffect {i : Instr} {s : State} {I : Iss} {n : Nat} {m : Bool} {P : Group → Prop} (hI : Issues s I)
    (hex : exec i s = lane n m [] (fun g _ => g) s) (hP : P (I.gr.retire I.k (I.sp.pc + BitVec.ofNat 17 n) m)) : Runs i s I P :=
  runs_of_done (hex.trans (lane_run n m [] _ hI.1 hI.2 I.gr.check_nil)) (kept_refl _) hP

/-- R72: the NOP parcel goes on to the next parcel and parks nothing. -/
theorem nop_runs {s : State} {I : Iss} (hI : Issues s I) (hrun : I.gr.park = .run) :
    Runs .nop s I fun G => SameRegs I.gr G ∧ SamePreds I.gr G ∧ G.sat = I.gr.sat ∧ G.park = .run
      ∧ StandsAt G (I.sp.pc + 1) I.sp.mask := by
  obtain ⟨hregs, hpreds, hsat⟩ := retire_same I.gr I.k (I.sp.pc + 1) false
  exact runs_of_noEffect hI (exec_nop s)
    ⟨hregs, hpreds, hsat, (Group.retire_false_park ..).trans hrun, standsAt_retire (State.iss_some hI.2).2 _ _⟩

/-- R11, R72, R155: the marker NOP goes on to the next parcel, and parks its group by what is pending and deferred. -/
theorem nopMarker_runs {s : State} {I : Iss} (hI : Issues s I) (hrun : I.gr.park = .run) :
    Runs .nopMarker s I fun G => SameRegs I.gr G ∧ SamePreds I.gr G ∧ G.sat = I.gr.sat
      ∧ (I.gr.deferred = [] → G.park = (if I.gr.pend = [] then .run else .marker))
      ∧ (I.gr.sup = false → (∃ r ∈ I.gr.deferred, ∃ p ∈ r.lanes, I.sp.mask.getLsbD p.1 = true) → G.park = .run)
      ∧ StandsAt G (I.sp.pc + 1) I.sp.mask := by
  obtain ⟨-, hslot⟩ := State.iss_some hI.2
  obtain ⟨hregs, hpreds, hsat⟩ := retire_same I.gr I.k (I.sp.pc + 1) true
  exact runs_of_noEffect hI (exec_nopMarker s)
    ⟨hregs, hpreds, hsat, fun hnone => Group.retire_true_park_of_deferred_nil hrun hnone ..,
      fun hsup ⟨_, hr, _, hp, hL⟩ => Group.retire_true_park_of_deferred hrun hsup hslot hr hp hL _, standsAt_retire hslot _ _⟩

/-- R151: NOP32 goes on by its two parcels. -/
theorem nop32_runs {s : State} {I : Iss} (hI : Issues s I) (m : Bool) :
    Runs (.nop32 m) s I fun G => SameRegs I.gr G ∧ SamePreds I.gr G ∧ G.sat = I.gr.sat ∧ StandsAt G (I.sp.pc + 2) I.sp.mask := by
  obtain ⟨hregs, hpreds, hsat⟩ := retire_same I.gr I.k (I.sp.pc + 2) m
  exact runs_of_noEffect hI (exec_nop32 m s) ⟨hregs, hpreds, hsat, standsAt_retire (State.iss_some hI.2).2 _ _⟩

/-- R10, R72: OR v0, v0, v0 with v0 pending takes cause 0x03. -/
theorem or_zero_traps {s : State} {I : Iss} (m : Bool) (hI : Issues s I) (hsup : I.gr.sup = false) (hv0 : 0 ∈ I.gr.pend) :
    ∃ t, exec (.or m 0 0 0) s = .next t ∧ Trapped t I 0x03 I.sp.mask I.sp.pc false := by
  have hcheck : I.gr.check false [(0, 1), (0, 1), (0, 1)] = some 0x03 :=
    Group.check_pending (by decide) (fun h => nomatch h) List.mem_cons_self ((Opd.pending_one ..).mpr hv0)
  exact ⟨I.trap s 0x03, (exec_or m 0 0 0 s).trans (lane_trap 2 m _ _ hI.1 hI.2 hcheck),
    trapped_of_pending hI hsup (List.ne_nil_of_mem hv0) 0x03⟩

/-- Settles O16: the NOPs have no operands to be pending and end their issue unchanged; OR v0, v0, v0 names v0. -/
theorem nopsAndMarker : Obligations.NopsAndMarker :=
  ⟨fun _ _ hI hrun => ⟨nop_runs hI hrun, nopMarker_runs hI hrun, nop32_runs hI⟩,
    fun _ _ m hI hsup hv0 => or_zero_traps m hI hsup hv0⟩

end Sys2Proof.Claims
end

section
/-! PROOFS. Writes of the module's own agents (R305), as every die sees them: the bytes written show, and nothing else changes but what
rounding the sectors' shadows does. -/

namespace Sys2Proof.Machine

/-! ### The last byte written -/

theorem lastWrite_append (l m : List (Nat × Byte)) (x : Nat) : lastWrite (l ++ m) x = (lastWrite m x).or (lastWrite l x) := by
  induction l with
  | nil => simp [lastWrite]
  | cons p t ih => simp [lastWrite, ih, Option.or_assoc]

theorem lastWrite_isSome (l : List (Nat × Byte)) (x : Nat) : (lastWrite l x).isSome = l.any fun p => p.1 = x := by
  induction l with
  | nil => rfl
  | cons p t ih =>
    rw [lastWrite, Option.isSome_or, ih, List.any_cons, Bool.or_comm]
    split <;> simp [*]

theorem mem_of_lastWrite {l : List (Nat × Byte)} {x : Nat} {b : Byte} (h : lastWrite l x = some b) : (x, b) ∈ l := by
  induction l with
  | nil => cases h
  | cons p t ih =>
    rcases Option.or_eq_some_iff.mp h with ht | ⟨-, hp⟩
    · exact List.mem_cons_of_mem _ (ih ht)
    · split at hp
      · cases hp; subst x; exact List.mem_cons_self
      · cases hp

/-- An address that every write gives the same byte reads as that byte. -/
theorem lastWrite_eq_some {l : List (Nat × Byte)} {x : Nat} {b : Byte} (hb : (x, b) ∈ l) (huniq : ∀ c, (x, c) ∈ l → c = b) :
    lastWrite l x = some b := by
  obtain ⟨c, hc⟩ := Option.isSome_iff_exists.mp ((lastWrite_isSome l x).trans (List.any_eq_true.mpr ⟨(x, b), hb, decide_eq_true rfl⟩))
  exact hc.trans (congrArg some (huniq c (mem_of_lastWrite hc)))

theorem lastWrite_filter (f : Nat → Bool) (l : List (Nat × Byte)) (x : Nat) :
    lastWrite (l.filter fun p => f p.1) x = if f x then lastWrite l x else none := by
  induction l with
  | nil => simp [lastWrite]
  | cons p t ih =>
    obtain ⟨a, b⟩ := p
    by_cases hax : a = x
    · subst a; by_cases hf : f x <;> simp [lastWrite, ih, hf]
    · by_cases hf : f a <;> simp [lastWrite, ih, hf, hax]

/-- R277: the pending write that shows is the last byte of the writes in their order. -/
theorem pendingByte_eq (pw : List PWrite) (a : Nat) : pendingByte pw a = lastWrite (pw.flatMap PWrite.bytes) a := by
  have inner (l : List (Nat × Byte)) (r : Option Byte) :
      l.foldl (fun r p => if p.1 = a then some p.2 else r) r = (lastWrite l a).or r := by
    induction l generalizing r with
    | nil => rfl
    | cons p t ih =>
      rw [List.foldl_cons, ih, lastWrite, Option.or_assoc]
      split <;> rfl
  have outer (r : Option Byte) :
      pw.foldl (fun r w => w.bytes.foldl (fun r p => if p.1 = a then some p.2 else r) r) r
        = (lastWrite (pw.flatMap PWrite.bytes) a).or r := by
    induction pw generalizing r with
    | nil => rfl
    | cons w t ih => rw [List.foldl_cons, ih, inner, List.flatMap_cons, lastWrite_append, Option.or_assoc]
  exact (outer none).trans (Option.or_none ..)

/-- A pending write without its bytes at the addresses of a later write. -/
def PWrite.without (l : List (Nat × Byte)) (w : PWrite) : PWrite :=
  { w with bytes := w.bytes.filter fun p => !(l.any fun q => q.1 = p.1) }

theorem pendingByte_without (l : List (Nat × Byte)) (pw : List PWrite) (a : Nat) :
    pendingByte (pw.map (PWrite.without l)) a = if (l.any fun q => q.1 = a) then none else pendingByte pw a := by
  have hbytes : (pw.map (PWrite.without l)).flatMap PWrite.bytes
      = (pw.flatMap PWrite.bytes).filter fun p => !(l.any fun q => q.1 = p.1) := by
    simp only [List.flatMap_map, List.filter_flatMap, PWrite.without]
  rw [pendingByte_eq, pendingByte_eq, hbytes, lastWrite_filter fun x => !(l.any fun q => q.1 = x)]
  cases l.any fun q => q.1 = a <;> rfl

/-! ### Tokens -/

/-- What moving tokens leaves of a state. -/
structure State.TokensOnly (s t : State) : Prop where
  eq : t = { s with toks := t.toks, residues := t.residues, hostLines := t.hostLines, msgs := t.msgs, serial := t.serial }

theorem State.TokensOnly.refl (s : State) : s.TokensOnly s := ⟨rfl⟩

theorem State.TokensOnly.trans {s t u : State} (h : s.TokensOnly t) (h' : t.TokensOnly u) : s.TokensOnly u :=
  ⟨by rw [h'.eq, h.eq]⟩

theorem State.TokensOnly.foldl {α : Type} {f : State → α → State} (hf : ∀ (s : State) a, s.TokensOnly (f s a)) (l : List α) (s : State) :
    s.TokensOnly (l.foldl f s) :=
  List.foldlRecOn l f (.refl s) fun t ht a _ => ht.trans (hf t a)

theorem State.setTok_tokensOnly (s : State) (h sec : Nat) (t : Tok) : s.TokensOnly (s.setTok h sec t) := by
  unfold State.setTok
  split <;> exact ⟨rfl⟩

theorem State.homeTakes_tokensOnly (s : State) (sec n : Nat) (o : Bool) (k : Nat) : s.TokensOnly (s.homeTakes sec n o k) := by
  unfold State.homeTakes
  dsimp only
  split
  · exact s.setTok_tokensOnly ..
  · exact .refl s

theorem State.homeGives_tokensOnly (s : State) (sec : Nat) : s.TokensOnly (s.homeGives sec) := by
  unfold State.homeGives
  dsimp only
  split
  · split
    · exact .refl s
    · exact (s.setTok_tokensOnly ..).trans ⟨rfl⟩
  · exact .refl s

theorem State.gather_tokensOnly (s : State) (sec : Nat) : s.TokensOnly (s.gather sec) := by
  unfold State.gather
  dsimp only
  split
  · exact s.setTok_tokensOnly ..
  · refine .trans (.trans (t := if _ then _ else s) ?_ (.foldl (fun s _ => (s.setTok_tokensOnly ..).trans (State.homeTakes_tokensOnly ..)) _ _))
      (.trans ⟨rfl⟩ (.foldl (fun s _ => s.homeTakes_tokensOnly ..) _ _))
    split <;> exact ⟨rfl⟩

theorem State.gatherAll_tokensOnly (s : State) (l : List (Nat × Byte)) : s.TokensOnly (s.gatherAll l) := by
  unfold State.gatherAll
  split
  · exact .refl s
  · exact .foldl State.gather_tokensOnly _ s

theorem State.giveAll_tokensOnly (s : State) (l : List (Nat × Byte)) : s.TokensOnly (s.giveAll l) := by
  unfold State.giveAll
  split
  · exact .refl s
  · exact .foldl State.homeGives_tokensOnly _ s

theorem State.TokensOnly.cores_eq {s t : State} (h : s.TokensOnly t) : t.cores = s.cores := by rw [h.eq]
theorem State.TokensOnly.dies_eq {s t : State} (h : s.TokensOnly t) : t.dies = s.dies := by rw [h.eq]

/-! ### Shadows (R64, R65) -/

theorem State.foldShadow_cores (s : State) (h sec : Nat) : (s.foldShadow h sec).cores = s.cores := by
  unfold State.foldShadow
  split
  · rfl
  · dsimp only
    split
    · rfl
    · split
      · rw [(State.setTok_tokensOnly ..).cores_eq, State.mergeBytes_eq]
      · rfl

theorem State.foldShadows_cores (s : State) (l : List Nat) : (s.foldShadows l).cores = s.cores := by
  unfold State.foldShadows
  split
  · rfl
  · refine List.foldlRecOn (motive := fun t : State => t.cores = s.cores) l _ rfl fun t ht x _ => ?_
    exact List.foldlRecOn (motive := fun t : State => t.cores = s.cores) _ _ ht fun u hu h _ => (u.foldShadow_cores h x).trans hu

/-- R65: rounding the shadows of sectors that have none does nothing. -/
theorem State.foldShadows_of_look_none {s : State} {l : List Nat} (h : ∀ sec ∈ l, ∀ k, s.shadows.look (holderKey k sec) = none) :
    s.foldShadows l = s := by
  unfold State.foldShadows
  split
  · rfl
  · refine List.foldlRecOn (motive := (· = s)) l _ rfl fun t ht sec hsec => ?_
    refine List.foldlRecOn (motive := (· = s)) _ _ ht fun u hu k _ => ?_
    subst u
    unfold State.foldShadow
    rw [h sec hsec k]

theorem mem_of_mem_runs {l : List Nat} {x : Nat} (h : x ∈ runs l) : x ∈ l := by
  induction l with
  | nil => cases h
  | cons y t ih =>
    simp only [runs] at h
    split at h
    · exact List.mem_cons_of_mem _ (ih h)
    · exact (List.mem_cons.mp h).elim (fun e => e ▸ List.mem_cons_self) fun ht => List.mem_cons_of_mem _ (ih ht)

/-! ### The write -/

theorem State.healSectors_eq (s : State) (plain : Bool) (l : List (Nat × Byte)) :
    s.healSectors plain l = { s with badSectors := (s.healSectors plain l).badSectors, poisoned := (s.healSectors plain l).poisoned } := by
  unfold State.healSectors
  split <;> rfl

/-- A write of an agent changes no core. -/
theorem State.hwWrite_cores (s : State) (l : List (Nat × Byte)) : (s.hwWrite l).cores = s.cores := by
  unfold State.hwWrite
  dsimp only
  rw [(State.giveAll_tokensOnly ..).cores_eq, State.mergeBytes_eq, State.healSectors_eq]
  dsimp only
  rw [(State.gatherAll_tokensOnly ..).cores_eq]
  exact s.foldShadows_cores _

theorem State.hwWrite_core (s : State) (l : List (Nat × Byte)) (c : Nat) : (s.hwWrite l).core c = s.core c := by
  simp only [State.core, State.hwWrite_cores]

/-- R305: what a write of an agent leaves of a die's pending writes: their bytes at other addresses. -/
theorem State.hwWrite_pw (s : State) (l : List (Nat × Byte)) (d : Nat) :
    ((s.hwWrite l).die d).pw = ((s.foldShadows (runs (l.map fun p => sectorOf p.1))).die d).pw.map (PWrite.without l) := by
  unfold State.hwWrite
  dsimp only
  rw [State.die, (State.giveAll_tokensOnly ..).dies_eq, State.mergeBytes_eq, State.healSectors_eq]
  dsimp only
  rw [(State.gatherAll_tokensOnly ..).dies_eq]
  simp only [State.die, SMap.get, SMap.look_mapVals]
  cases SMap.look (s.foldShadows (runs (l.map fun p => sectorOf p.1))).dies d with
  | none => rfl
  | some k =>
    simp only [Option.map_some, Option.getD_some]
    split
    · rename_i hpw
      rw [List.isEmpty_iff.mp hpw]; rfl
    · rfl

/-- R277, R305: every die sees the bytes that an agent has written, and every other byte as it is once the sectors' shadows are rounded. -/
theorem State.dieView_hwWrite (s : State) (l : List (Nat × Byte)) (d a : Nat) :
    (s.hwWrite l).dieView d a
      = (lastWrite l a).getD ((s.foldShadows (runs (l.map fun p => sectorOf p.1))).dieView d a) := by
  rw [State.dieView, State.hwWrite_pw, pendingByte_without, State.merged_hwWrite, State.dieView]
  rw [← lastWrite_isSome]
  cases lastWrite l a <;> rfl

end Sys2Proof.Machine
end

section
/-! PROOFS. TRAP (R158) and trap entry (R152, R153): what the trap frame holds, what the group becomes, and what memory keeps. -/

namespace Sys2Proof.Machine

/-! ### Little-endian cells (R177) -/

theorem toBytes_eq_map (n x : Nat) : toBytes n x = (List.range n).map fun i => BitVec.ofNat 8 (x / 256 ^ i) := by
  induction n generalizing x with
  | zero => rfl
  | succ n ih =>
    rw [toBytes, ih, List.range_succ_eq_map, List.map_cons, List.map_map]
    simp only [Nat.pow_zero, Nat.div_one, List.cons.injEq, true_and]
    exact List.map_congr_left fun i _ => by simp [Nat.div_div_eq_div_mul, Nat.pow_succ']

theorem mem_cellsOf {a n x : Nat} {p : Nat × Byte} :
    p ∈ cellsOf a n x ↔ ∃ i < n, (a + i, BitVec.ofNat 8 (x / 256 ^ i)) = p := by
  rw [cellsOf, toBytes_eq_map, fromN, List.zip_map']
  simp [List.mem_map]

/-- A die that sees the bytes of a number reads the number. -/
theorem State.rdD_of_bytes {s : State} {d a n x : Nat} (h : ∀ i < n, s.dieView d (a + i) = BitVec.ofNat 8 (x / 256 ^ i)) :
    s.rdD d a n = x % 256 ^ n := by
  have hbytes : (fromN a n).map (s.dieView d) = toBytes n x := by
    rw [toBytes_eq_map, fromN, List.map_map]
    exact List.map_congr_left fun i hi => h i (List.mem_range.mp hi)
  rw [State.rdD, hbytes, ofBytes_toBytes]

/-! ### The trap frame (R153) -/

/-- R153: the words of the trap frame in their order: v0 to v7 lane by lane, p0 to p7 and s0 to s7. -/
def Group.frameWord (g : Group) (w : Nat) : Word :=
  if w < 256 then g.vget (w % 8) (w / 8) else if w < 264 then g.pget (w - 256) else g.sget (w - 264)

theorem Group.frameWord_v (g : Group) {L j : Nat} (hL : L < 32) (hj : j < 8) : g.frameWord (8 * L + j) = g.vget j L := by
  rw [Group.frameWord, if_pos (by omega), show (8 * L + j) % 8 = j by omega, show (8 * L + j) / 8 = L by omega]

theorem Group.frameWord_p (g : Group) {j : Nat} (hj : j < 8) : g.frameWord (256 + j) = g.pget j := by
  rw [Group.frameWord, if_neg (by omega), if_pos (by omega), Nat.add_sub_cancel_left]

theorem Group.frameWord_s (g : Group) (j : Nat) : g.frameWord (264 + j) = g.sget j := by
  rw [Group.frameWord, if_neg (by omega), if_neg (by omega), Nat.add_sub_cancel_left]

/-- R153: the bytes that trap entry writes are those of the frame's 272 words. -/
theorem Group.mem_frameCells {g : Group} {base : Nat} {p : Nat × Byte} :
    p ∈ g.frameCells base ↔ ∃ w < 272, p ∈ cellsOf (base + 4 * w) 4 (g.frameWord w).toNat := by
  simp only [Group.frameCells, List.mem_append, List.mem_flatMap, List.mem_range]
  constructor
  · rintro ((⟨L, hL, j, hj, hp⟩ | ⟨j, hj, hp⟩) | ⟨j, hj, hp⟩)
    · refine ⟨8 * L + j, by omega, ?_⟩
      rwa [g.frameWord_v hL hj, show base + 4 * (8 * L + j) = base + 0x20 * L + 4 * j by omega]
    · refine ⟨256 + j, by omega, ?_⟩
      rwa [g.frameWord_p hj, show base + 4 * (256 + j) = base + 0x400 + 4 * j by omega]
    · refine ⟨264 + j, by omega, ?_⟩
      rwa [g.frameWord_s j, show base + 4 * (264 + j) = base + 0x420 + 4 * j by omega]
  · rintro ⟨w, hw, hp⟩
    rcases Nat.lt_or_ge w 256 with hv | hv
    · refine .inl (.inl ⟨w / 8, by omega, w % 8, by omega, ?_⟩)
      rwa [← g.frameWord_v (by omega) (by omega), Nat.div_add_mod, show base + 0x20 * (w / 8) + 4 * (w % 8) = base + 4 * w by omega]
    rcases Nat.lt_or_ge w 264 with hq | hq
    · refine .inl (.inr ⟨w - 256, by omega, ?_⟩)
      rwa [← g.frameWord_p (by omega), Nat.add_sub_cancel' hv, show base + 0x400 + 4 * (w - 256) = base + 4 * w by omega]
    · refine .inr ⟨w - 264, by omega, ?_⟩
      rwa [← g.frameWord_s, Nat.add_sub_cancel' hq, show base + 0x420 + 4 * (w - 264) = base + 4 * w by omega]

theorem Group.frameCells_bounds {g : Group} {base : Nat} {p : Nat × Byte} (hp : p ∈ g.frameCells base) :
    base ≤ p.1 ∧ p.1 < base + 0x440 := by
  obtain ⟨w, hw, hp⟩ := Group.mem_frameCells.mp hp
  obtain ⟨i, hi, rfl⟩ := mem_cellsOf.mp hp
  dsimp only
  omega

/-- The words of the frame lie side by side, so that no byte of it is written twice. -/
theorem Group.lastWrite_frameCells (g : Group) (base : Nat) {w i : Nat} (hw : w < 272) (hi : i < 4) :
    lastWrite (g.frameCells base) (base + 4 * w + i) = some (BitVec.ofNat 8 ((g.frameWord w).toNat / 256 ^ i)) := by
  refine lastWrite_eq_some (Group.mem_frameCells.mpr ⟨w, hw, mem_cellsOf.mpr ⟨i, hi, rfl⟩⟩) fun c hc => ?_
  obtain ⟨w', -, hc⟩ := Group.mem_frameCells.mp hc
  obtain ⟨i', hi', hc⟩ := mem_cellsOf.mp hc
  obtain ⟨haddr, rfl⟩ := Prod.mk.inj hc
  obtain rfl : w' = w := by omega
  obtain rfl : i' = i := by omega
  rfl

theorem Group.lastWrite_frameCells_outside (g : Group) {base a : Nat} (ha : a < base ∨ base + 0x440 ≤ a) :
    lastWrite (g.frameCells base) a = none := by
  refine lastWrite_none _ _ fun p hp hpa => ?_
  have hbounds := Group.frameCells_bounds hp
  omega

/-- R153: after the write of the trap frame every die reads its words. -/
theorem State.rdD_hwWrite_frameCells (s : State) (g : Group) (base d : Nat) {w : Nat} (hw : w < 272) :
    (s.hwWrite (g.frameCells base)).rdD d (base + 4 * w) 4 = (g.frameWord w).toNat := by
  rw [State.rdD_of_bytes (x := (g.frameWord w).toNat) fun i hi => by rw [State.dieView_hwWrite, g.lastWrite_frameCells base hw hi]; rfl]
  exact Nat.mod_eq_of_lt (g.frameWord w).isLt

/-! ### Trap entry (R152) -/

/-- R152: the group once its handler starts at `pc`, for the request `q` of the split `sp`. -/
def Group.enter (x : Group) (q : TrapReq) (sp : Split) (pc : Pc) : Group :=
  { x with
    trapcause := q.cause
    trapmask := q.mask
    trapaddr := q.addrs.filter fun p => q.mask.getLsbD p.1
    trapsplit := trapsplitOf sp.mask q.pc q.done q.slot sp.frame sp.depth
    entryMask := sp.mask
    handlerSlot := q.slot
    entryFence := sp.afterFence
    trapPend := none
    sup := true
    slots := x.slots.put q.slot { pc := pc, mask := q.mask, frame := sp.frame } }

theorem State.enterTrap_eq {s : State} {c g : Nat} {x : Group} {q : TrapReq} {sp : Split} (hx : s.grp c g = some x)
    (hq : x.trapPend = some q) (hsp : x.slots.look q.slot = some sp) :
    s.enterTrap c g
      = (s.hwWrite (x.frameCells (s.frameBase x.ctx x.block))).setGrp c g (x.enter q sp ((s.core c).handler q.cause)) := by
  simp only [State.enterTrap, hx, hq, hsp, State.hwWrite_core]
  rfl

theorem trapsplitOf_mask (mask : Mask) (pc : Pc) (done : Bool) (slot frame depth : Nat) :
    (trapsplitOf mask pc done slot frame depth).extractLsb' 0 32 = mask := by
  rw [trapsplitOf, BitVec.extractLsb'_append_eq_of_add_le (by decide), BitVec.extractLsb'_eq_self]

theorem trapsplitOf_pc (mask : Mask) (pc : Pc) (done : Bool) (slot frame depth : Nat) :
    (trapsplitOf mask pc done slot frame depth).extractLsb' 32 17 = pc := by
  rw [trapsplitOf, BitVec.extractLsb'_append_eq_of_le (by decide), BitVec.extractLsb'_append_eq_of_add_le (by decide),
    BitVec.extractLsb'_eq_self]

theorem trapsplitOf_done (mask : Mask) (pc : Pc) (done : Bool) (slot frame depth : Nat) :
    (trapsplitOf mask pc done slot frame depth).getLsbD 49 = done := by
  simp only [trapsplitOf, BitVec.getLsbD_append]
  simp

theorem State.grp_setGrp_self (s : State) (c g : Nat) (x : Group) : (s.setGrp c g x).grp c g = some x :=
  (State.grp_setGrp ..).trans (if_pos ⟨rfl, rfl⟩)

@[simp] theorem State.rdD_setGrp (s : State) (c g : Nat) (x : Group) (d a n : Nat) : (s.setGrp c g x).rdD d a n = s.rdD d a n := rfl

@[simp] theorem State.handler_setGrp (s : State) (c g j : Nat) (x : Group) (cause : BitVec 8) :
    ((s.setGrp c g x).core j).handler cause = (s.core j).handler cause := by
  rw [State.setGrp, State.core_setCore]
  split
  · subst j; rfl
  · rfl

/-- R152: the issuing group once its split stands at the place to resume and the request waits for the pending count to reach 0. -/
def Iss.request (I : Iss) (q : TrapReq) : Group :=
  { (I.gr.tick (some I.k)).goto I.k q.pc with trapPend := some q, park := .run }

/-- A request changes the group's splits, its parking and the request alone. -/
theorem Iss.request_eq (I : Iss) (q : TrapReq) :
    I.request q = { I.gr with
      slots := (I.request q).slots
      spill := (I.request q).spill
      frames := (I.request q).frames
      parkMark := (I.request q).parkMark
      stall := (I.request q).stall
      trapPend := some q
      park := .run } := by
  rw [Iss.request, (I.gr.advance_splitsOnly I.k q.pc).eq]

/-- The issuing split of a request: at the place to resume, its issue slot counted. -/
def Iss.resuming (I : Iss) (q : TrapReq) : Split :=
  { I.sp with pc := q.pc, age := 0, fresh := false, wait := .none, waitMark := false }

/-- R152, R153: the state once the request of the issuing split is entered: the trap frame is written and the handler starts. -/
def Iss.entered (I : Iss) (s : State) (q : TrapReq) : State :=
  ((s.setGrp I.c I.g (I.request q)).hwWrite (I.gr.frameCells (s.frameBase I.gr.ctx I.gr.block))).setGrp I.c I.g
    ((I.request q).enter q (I.resuming q) ((s.core I.c).handler q.cause))

theorem Iss.enterTrap_request (s : State) {I : Iss} (hslot : I.gr.slots.look I.k = some I.sp) {q : TrapReq} (hq : q.slot = I.k) :
    (s.setGrp I.c I.g (I.request q)).enterTrap I.c I.g = I.entered s q := by
  have hlook : (I.request q).slots.look q.slot = some (I.resuming q) := by
    rw [hq]
    exact Group.look_goto_tick hslot q.pc
  have hframe : (I.request q).frameCells ((s.setGrp I.c I.g (I.request q)).frameBase (I.request q).ctx (I.request q).block)
      = I.gr.frameCells (s.frameBase I.gr.ctx I.gr.block) := by
    rw [I.request_eq q]; rfl
  rw [State.enterTrap_eq (State.grp_setGrp_self ..) rfl hlook, hframe, State.handler_setGrp, Iss.entered]

/-- R152: in user mode a cause makes a request, which is entered at once where nothing is pending. -/
theorem Iss.raise_eq {s : State} {I : Iss} (hI : s.iss I.c I.g I.k = some I) (hsup : I.gr.sup = false) {q : TrapReq} (hq : q.slot = I.k) :
    s.raise I.c I.g I.k q.cause q.mask q.addrs q.pc q.done
      = if I.gr.pend = [] then I.entered s q else s.setGrp I.c I.g (I.request q) := by
  obtain ⟨hgrp, hslot⟩ := State.iss_some hI
  rw [State.raise_cases _ _ _ _ _ _ _ _ _ _ hgrp, if_neg (by simp [hsup]), ← Iss.enterTrap_request s hslot hq]
  obtain ⟨cause, mask, addrs, pc, done, slot⟩ := q
  obtain rfl : slot = I.k := hq
  have hpend : ((I.gr.tick (some I.k)).goto I.k pc).pend = I.gr.pend := by rw [(I.gr.advance_splitsOnly I.k pc).eq]
  exact if_congr (by rw [List.isEmpty_iff, if_pos rfl, hpend]) rfl rfl

end Sys2Proof.Machine

namespace Sys2Proof.Claims

open Machine Host

/-! ### A request that waits (R152) -/

/-- A request keeps every register, every predicate and `stat.sat`. -/
theorem request_same (I : Iss) (q : TrapReq) :
    SameRegs I.gr (I.request q) ∧ SamePreds I.gr (I.request q) ∧ (I.request q).sat = I.gr.sat := by
  rw [I.request_eq q]
  exact ⟨⟨fun _ _ => rfl, fun _ => rfl⟩, fun _ => rfl, rfl⟩

theorem trapped_request (s : State) {I : Iss} (hsup : I.gr.sup = false) (hpend : I.gr.pend ≠ []) (q : TrapReq) :
    Trapped (s.setGrp I.c I.g (I.request q)) I q.cause q.mask q.pc q.done := by
  refine ⟨I.request q, State.grp_setGrp_self .., fun h => absurd h hpend, fun _ => ⟨?_, q, rfl, rfl, rfl, rfl, rfl⟩⟩
  rw [I.request_eq q]
  exact hsup

/-! ### A request that is entered (R152, R153) -/

theorem trapped_entered (s : State) {I : Iss} (hpend : I.gr.pend = []) (q : TrapReq) :
    Trapped (I.entered s q) I q.cause q.mask q.pc q.done := by
  have hhandler : ((I.entered s q).core I.c).handler q.cause = (s.core I.c).handler q.cause := by
    rw [Iss.entered, State.handler_setGrp, State.hwWrite_core, State.handler_setGrp]
  exact ⟨_, State.grp_setGrp_self ..,
    fun _ => ⟨rfl, rfl, rfl, trapsplitOf_mask .., trapsplitOf_pc .., trapsplitOf_done .., _, SMap.look_put_self .., hhandler.symm, rfl⟩,
    fun h => absurd hpend h⟩

/-- R65: no shadow stands on a sector that the trap frame touches. -/
theorem foldShadows_frameCells {s : State} {base : Nat} (hno : NoShadow s base 0x440) (g : Group) :
    s.foldShadows (runs ((g.frameCells base).map fun p => sectorOf p.1)) = s := by
  refine State.foldShadows_of_look_none fun sec hsec h => ?_
  obtain ⟨p, hp, rfl⟩ := List.mem_map.mp (mem_of_mem_runs hsec)
  obtain ⟨hlo, hhi⟩ := Group.frameCells_bounds hp
  exact hno h p.1 hlo hhi

/-- R153: trap entry changes no byte outside the frame, where no shadow stands on the frame's sectors. -/
theorem sameMemBut_entered {s : State} {I : Iss} (hno : NoShadow s (frameOf s I) 0x440) (q : TrapReq) :
    SameMemBut s (I.entered s q) (frameOf s I) 0x440 := by
  refine ⟨fun d a ha => ?_, fun c o => ?_⟩
  · have hfold := foldShadows_frameCells (s := s.setGrp I.c I.g (I.request q)) hno I.gr
    have hout : lastWrite (I.gr.frameCells (frameOf s I)) a = none := I.gr.lastWrite_frameCells_outside ha
    rw [frameOf] at hfold hout
    rw [Iss.entered, State.dieView_setGrp, State.dieView_hwWrite, hout, hfold]
    rfl
  · rw [Iss.entered, State.ls_setGrp, State.hwWrite_core, State.ls_setGrp]

theorem rdD_entered (s : State) (I : Iss) (q : TrapReq) (d : Nat) {a w : Nat} (ha : a = frameOf s I + 4 * w) (hw : w < 272) :
    (I.entered s q).rdD d a 4 = (I.gr.frameWord w).toNat := by
  rw [Iss.entered, State.rdD_setGrp, ha]
  exact State.rdD_hwWrite_frameCells _ I.gr _ d hw

/-- R153: the frame then holds v0 to v7, p0 to p7 and s0 to s7, as every die reads it. -/
theorem frame_entered (s : State) (I : Iss) (q : TrapReq) (d : Nat) :
    (∀ L j, L < 32 → j < 8 → (I.entered s q).rdD d (frameOf s I + 0x20 * L + 4 * j) 4 = (I.gr.vget j L).toNat)
      ∧ (∀ j, j < 8 → (I.entered s q).rdD d (frameOf s I + 0x400 + 4 * j) 4 = (I.gr.pget j).toNat)
      ∧ ∀ j, j < 8 → (I.entered s q).rdD d (frameOf s I + 0x420 + 4 * j) 4 = (I.gr.sget j).toNat := by
  refine ⟨fun L j hL hj => ?_, fun j hj => ?_, fun j hj => ?_⟩
  · rw [rdD_entered s I q d (w := 8 * L + j) (by omega) (by omega), I.gr.frameWord_v hL hj]
  · rw [rdD_entered s I q d (w := 256 + j) (by omega) (by omega), I.gr.frameWord_p hj]
  · rw [rdD_entered s I q d (w := 264 + j) (by omega) (by omega), I.gr.frameWord_s]

/-! ### TRAP (R158) -/

/-- R158: the word of `trap #k`. -/
theorem encode_trap (k : BitVec 5) : encode (.trap false k) = some (0x00000101 + k.toNat * 2 ^ 9, 2) := rfl

/-- R158: the request that `trap #k` makes. -/
def trapReq (I : Iss) (k : BitVec 5) : TrapReq := ⟨0xC0 + k.setWidth 8, I.sp.mask, [], I.sp.pc + 2, true, I.k⟩

theorem exec_trap {m : Bool} {k : BitVec 5} {s : State} {I : Iss} (hI : Issues s I) (hsup : I.gr.sup = false) :
    exec (.trap m k) s
      = .next (if I.gr.pend = [] then I.entered s (trapReq I k) else s.setGrp I.c I.g (I.request (trapReq I k))) := by
  rw [← Iss.raise_eq hI.2 hsup (q := trapReq I k) rfl]
  exact onSplit_run _ hI.1 hI.2

/-- Settles O26: the request that a TRAP makes is entered, or waits while something is pending. -/
theorem trapEntry : Obligations.TrapEntry := by
  refine ⟨encode_trap 5, encode_trap, fun m k s I hI hsup => ?_⟩
  obtain ⟨hregs, hpreds, hsat⟩ := request_same I (trapReq I k)
  by_cases hpend : I.gr.pend = []
  · exact ⟨_, _, (exec_trap hI hsup).trans (congrArg _ (if_pos hpend)), State.grp_setGrp_self .., hregs, hpreds, hsat,
      trapped_entered s hpend _, fun _ => ⟨fun hno => sameMemBut_entered hno _, frame_entered s I _⟩, fun h => absurd hpend h⟩
  · exact ⟨_, _, (exec_trap hI hsup).trans (congrArg _ (if_neg hpend)), State.grp_setGrp_self .., hregs, hpreds, hsat,
      trapped_request s hsup hpend _, fun h => absurd h hpend, fun _ => sameMem_setGrp ..⟩

end Sys2Proof.Claims
end
